-- ==== Sys2Proof/Word.lean ====
section
/-! DEFINITION. The word types of the block (spec/00_scope.md R11, spec/30_encoding.md R44). -/

namespace Sys2Proof

/-- A `u8`: every register, frame byte and output of the block (R11, R32). -/
abbrev Byte := BitVec 8

/-- A `u16`: the intermediates of the mapper and the scaler, which live inside one step (R32). -/
abbrev Half := BitVec 16

/-- An operation word: a value of 32 bits with no byte order (R44). -/
abbrev Word := BitVec 32

end Sys2Proof
end

