-- ==== Sys2Proof/Config.lean ====
section
/-! DEFINITION. The implementation parameters at the values the spec makes normative
(spec/00_scope.md R4 to R9), and the one OPEN parameter. -/

namespace Sys2Proof.Config

/-- R4: `N_LED`, the number of LED channels. -/
abbrev nLed : Nat := 8

/-- R28: the input frame holds the channel offsets `0 .. N_LED+1`, so it has `N_LED+2` bytes. -/
abbrev frameSize : Nat := nLed + 2

/-- R5: `TICK_WIDTH`, the width of the tick counter in bits (the width of `Byte`). -/
abbrev tickWidth : Nat := 8

/-- R6: `ON_TIME_TICKS`, the lit duration of one flash in ticks. -/
def onTimeTicks : Byte := 4#8

/-- R7: `OFF_NUM`. -/
def offNum : Half := 51000#16

/-- R7: `OFF_STEP`. -/
def offStep : Half := 190#16

/-- R7: `OFF_DEN`. -/
def offDen : Half := 255#16

/-- R8: `SCALE_DEN`. -/
def scaleDen : Half := 255#16

/-- R9: `TICK_PERIOD`, 2.5 ms nominal, in microseconds; no rule depends on it. -/
def tickPeriodMicros : Nat := 2500

/-- `INITIAL_DELAY` in microseconds, the time from the end of RST to the first TICK: OPEN in the spec
(R107, 92_eei_decisions.md D24, 93_implementation_defined.md U9), so it has no body here.
It is timing only, and no step of the model reads it (log entry 6). -/
opaque initialDelay : Nat

end Sys2Proof.Config
end

