-- ==== Sys2Proof/Syntax.lean ====
section
/-! DEFINITION. The operations of spec/opcode_table.json as one inductive, and the other names the spec
speaks in: the two-valued registers, the output ports, the events of a schedule, the pseudo-operations. -/

namespace Sys2Proof

/-- R14: the two values of `strobe_state`. -/
inductive StrobeState where
  | off
  | on
  deriving DecidableEq, Repr

/-- R18: the two values of the control-loop sequencer. -/
inductive Phase where
  | ready
  | sampled
  deriving DecidableEq, Repr

/-- One constructor per row of spec/opcode_table.json, with the fields of R46. -/
inductive Instr where
  /-- `RST` (R103). -/
  | rst
  /-- `TICK` (R55). -/
  | tick
  /-- `SAMPLE` (R66). -/
  | sample
  /-- `COMMIT` (R76). -/
  | commit
  /-- `HOST_WR k, v` (R36): channel offset `k`, byte `v`. -/
  | hostWr (k : BitVec 10) (v : Byte)
  /-- `F_OFFMAP p` (R61): strobe speed `p`. -/
  | fOffmap (p : Byte)
  /-- `F_NEXT s, a, t, m, p` (R67): state, was_active, ticks, masterRaw, speed. -/
  | fNext (s : StrobeState) (a : Bool) (t m p : Byte)
  /-- `F_SCALE r, b` (R80): raw channel value, effective brightness. -/
  | fScale (r b : Byte)
  deriving DecidableEq, Repr

/-- The defined operation codes of R45. -/
inductive OpCode where
  | rst
  | tick
  | sample
  | commit
  | hostWr
  | fOffmap
  | fNext
  | fScale
  deriving DecidableEq, Repr

/-- Why a word is no operation (R48, R49, R50). -/
inductive DecodeError where
  /-- R49: the operation code is reserved. -/
  | reservedOp
  /-- R48: a reserved bit of a defined operation is set. -/
  | reservedBits
  /-- R50: `HOST_WR` with `k > N_LED + 1`. -/
  | offsetOutOfFrame (k : BitVec 10)
  deriving DecidableEq, Repr

/-- R10, R45: who performs an operation. RST comes from the environment, outside the three agents; a unit
call is performed by a unit test and counts as no agent's step (R52). -/
inductive Performer where
  | environment
  | ticker
  | loop
  | host
  | unitTest
  deriving DecidableEq, Repr

/-- R67: the result `(ns, eff, rr)` of the transition function. -/
structure Transition where
  /-- The new state. -/
  ns : StrobeState
  /-- The effective brightness. -/
  eff : Byte
  /-- The tick-reset request. -/
  rr : Bool
  deriving DecidableEq, Repr

/-- R26: the output ports. The input ports are the frame's bytes (R28), RST and TICK. -/
inductive Port where
  | ledOut (i : Fin Config.nLed)
  | obsTicks
  | obsState
  | obsWas
  | obsEff
  | obsPhase
  deriving DecidableEq, Repr

/-- What a port read gives: 8 bits or 1 bit, by the width column of R26. -/
inductive PortValue where
  | byte (b : BitVec 8)
  | bit (b : BitVec 1)
  deriving DecidableEq, Repr

/-- What the outside world asks next: an operation word of the schedule (R53), or a host read of an
output port, which may come at any time (R101). -/
inductive Event where
  | word (w : Word)
  | read (p : Port)
  deriving DecidableEq, Repr

/-- A value handed back to a caller: a unit call's result (R52) or a port's value (R101). -/
inductive Returned where
  | offTicks (off : Byte)
  | transition (r : Transition)
  | scaled (out : Byte)
  | port (p : Port) (v : PortValue)
  deriving DecidableEq, Repr

/-- R54: the pseudo-operations. -/
inductive Pseudo where
  | iterate
  | ticks (n : Nat)
  | setM (v : Byte)
  | setS (v : Byte)
  | setL (i : Fin Config.nLed) (v : Byte)
  | drive (m p : Byte) (leds : Vector Byte Config.nLed)
  deriving DecidableEq, Repr

/-- R53: an operand as written: a number, or one of the names `OFF` and `ON`. -/
inductive Operand where
  | num (n : Nat)
  | state (s : StrobeState)
  deriving DecidableEq, Repr

/-- A line of a schedule once read: nothing but a comment, an operation, or a pseudo-operation. -/
inductive Line where
  | blank
  | op (i : Instr)
  | pseudo (p : Pseudo)
  deriving DecidableEq, Repr

/-- Why the assembler turns a line away. -/
inductive AsmError where
  /-- R53: an operand does not fit its field. -/
  | operandWidth
  /-- The line has none of the forms of R53 and R54 (log entry 10). -/
  | malformed
  deriving DecidableEq, Repr

end Sys2Proof
end

