-- ==== Sys2Proof/Machine/State.lean ====
section
/-! DEFINITION. The state of the block (spec/10_state.md), the model's outcomes (spec/60_exceptions.md R90),
and the state after reset (R27, R103). -/

namespace Sys2Proof.Machine

/-- The model's one fault (R90). It is no hardware exception: the hardware raises none (R85). -/
inductive Fault where
  /-- R89, code 16: raised by a host read of `obs_eff` or of a `led_out[i]` before the first COMMIT after
  RST, and recorded with the port read. Safe: the run stops where the spec names no value. -/
  | unwrittenOutput (p : Port)
  deriving DecidableEq, Repr

/-- Why a word or a schedule has no meaning in the model (R87, R90). -/
inductive Refusal where
  /-- Raised by `exec` for an operation whose meaning is not written: none is left. Safe. -/
  | notModelled (mnemonic : String)
  /-- R49, code 1: raised when the word at the head of the schedule has a reserved operation code. Safe. -/
  | reservedOp (w : Word)
  /-- R48, code 2: raised when that word has a reserved bit set. Safe. -/
  | reservedBits (w : Word)
  /-- R50, code 3: raised by a `HOST_WR` whose `k` lies outside the frame. Safe. -/
  | offsetOutOfFrame (w : Word) (k : BitVec 10)
  /-- R53, code 4: raised by the assembler when an operand does not fit its field. Safe. -/
  | operandWidth (line : String)
  /-- R88, code 5: raised by SAMPLE in `SAMPLED` and by COMMIT in `READY`. Safe. -/
  | phaseOrder (w : Word) (phase : Phase)
  /-- The assembler's, for a line of none of the forms of R53 and R54; the spec numbers no cause for it
  (log entry 10). Safe. -/
  | malformedLine (line : String)
  /-- Raised by `step` when the schedule has no event left: a run ends after its last word (R102, log
  entry 2). Safe: the model says nothing of what follows. -/
  | scheduleEnded
  deriving DecidableEq, Repr

/-- The input frame as cells (offset, byte), offsets strictly rising, no cell equal to what an unlisted
offset reads as. -/
abbrev Memory := List Host.Cell

/-- Everything the spec gives the block, and the model's own fields at the end. -/
structure State where
  /-- R13: `tick_count`. -/
  tickCount : Byte
  /-- R14: `strobe_state`. -/
  strobeState : StrobeState
  /-- R15: `was_active`. -/
  wasActive : Bool
  /-- R16: `eff_out`. -/
  effOut : Byte
  /-- R17: `led_out[0..N_LED-1]`. -/
  ledOut : Vector Byte Config.nLed
  /-- R25: whether a COMMIT has written `eff_out` and `led_out` since RST; false is the spec's "no value
  (unwritten)" (log entry 3). -/
  outputsWritten : Bool
  /-- R18: `phase`. -/
  phase : Phase
  /-- R19: `snap_master`. -/
  snapMaster : Byte
  /-- R19: `snap_speed`. -/
  snapSpeed : Byte
  /-- R19: `snap_ticks`. -/
  snapTicks : Byte
  /-- R19: `snap_led[0..N_LED-1]`. -/
  snapLed : Vector Byte Config.nLed
  /-- R28: the input frame, owned by the host. -/
  inFrame : Memory
  /-- R21: the mark `faulted`. -/
  faulted : Option Fault
  /-- R21: the mark `refused`. -/
  refused : Option Refusal
  /-- The model's: what is still to come of the interleaving of R10, R38 and R101, next first (log entry 1). -/
  schedule : List Event
  /-- The model's: what unit calls and port reads have given their callers, newest first (log entry 4). -/
  returned : List Returned
  deriving DecidableEq, Repr

/-- R27: the state right after reset at the start of a run: marks clear, and the frame, which RST does not
touch, with nothing listed. The registers to which R27 gives "no value" hold 0 (log entry 3). -/
def State.reset : State where
  tickCount := 0
  strobeState := .off
  wasActive := false
  effOut := 0
  ledOut := Vector.replicate Config.nLed 0
  outputsWritten := false
  phase := .ready
  snapMaster := 0
  snapSpeed := 0
  snapTicks := 0
  snapLed := Vector.replicate Config.nLed 0
  inFrame := []
  faulted := none
  refused := none
  schedule := []
  returned := []

end Sys2Proof.Machine
end

