-- ==== Sys2Proof/WellFormed.lean ====
section
/-! DEFINITION. Which terms of `Instr` are operations of this block. Every field's width is its type's, so
the one check left is the frame's bound (spec/30_encoding.md R50). -/

namespace Sys2Proof

/-- R28, R50: the last channel offset, `N_LED + 1`. -/
abbrev lastOffset : Nat := Config.nLed + 1

/-- R50: a `HOST_WR` names an offset of the frame; every other operation is well formed. -/
def Instr.wf : Instr → Bool
  | .rst => true
  | .tick => true
  | .sample => true
  | .commit => true
  | .hostWr k _ => decide (k.toNat ≤ lastOffset)
  | .fOffmap _ => true
  | .fNext _ _ _ _ _ => true
  | .fScale _ _ => true

end Sys2Proof
end

