-- ==== Sys2Proof/Machine/Ops.lean ====
section
/-! DEFINITION. The named operations over the frame, the registers and the model marks
(spec/10_state.md, spec/20_memory.md, spec/40_tick_counter.md, spec/60_exceptions.md). -/

namespace Sys2Proof.Machine

/-! ## The input frame as memory (R28, R30, R36) -/

/-- What an offset that no HOST step has written reads as: the zero the host owes when there is no DMX
frame (R37). The spec gives the bytes no reset value (R107). DESIGN CHOICE, unsafe: log entry 5. -/
def frameDefault : Byte := 0

/-- The byte at an offset. -/
def Memory.read : Memory → Nat → Byte
  | [], _ => frameDefault
  | (a, b) :: m, k => if a = k then b else Memory.read m k

/-- Puts a cell in front, or nothing where the byte is what an unlisted offset reads as. -/
def Memory.cons (k : Nat) (v : Byte) (m : Memory) : Memory :=
  if v = frameDefault then m else (k, v) :: m

/-- Stores a byte and keeps the canonical form. -/
def Memory.write : Memory → Nat → Byte → Memory
  | [], k, v => Memory.cons k v []
  | (a, b) :: m, k, v =>
    if k < a then Memory.cons k v ((a, b) :: m)
    else if k = a then Memory.cons k v m
    else (a, b) :: Memory.write m k v

/-- Offsets strictly rise from `lo` on, and no cell holds what an unlisted offset reads as. -/
def Memory.wfFrom (lo : Nat) : Memory → Bool
  | [] => true
  | (a, b) :: m => decide (lo ≤ a) && decide (b ≠ frameDefault) && Memory.wfFrom (a + 1) m

/-- The canonical form. -/
def Memory.wf (m : Memory) : Bool := Memory.wfFrom 0 m

/-- Every listed offset lies in the frame (R28). -/
def Memory.inFrameSpace (m : Memory) : Bool := m.all fun c => decide (c.1 < Config.frameSize)

/-! ## One update per register group -/

/-- Writes `tick_count` (R13). -/
def State.withTick (s : State) (t : Byte) : State := { s with tickCount := t }

/-- Writes the two flags `strobe_state` and `was_active` (R14, R15). -/
def State.withFlags (s : State) (st : StrobeState) (was : Bool) : State :=
  { s with strobeState := st, wasActive := was }

/-- Writes `eff_out` and every `led_out[i]` (R16, R17), which from then on hold a value (R25). -/
def State.withOutputs (s : State) (eff : Byte) (leds : Vector Byte Config.nLed) : State :=
  { s with effOut := eff, ledOut := leds, outputsWritten := true }

/-- Writes `phase` (R18). -/
def State.withPhase (s : State) (ph : Phase) : State := { s with phase := ph }

/-- Writes the snapshot registers (R19). -/
def State.withSnapshot (s : State) (m p t : Byte) (leds : Vector Byte Config.nLed) : State :=
  { s with snapMaster := m, snapSpeed := p, snapTicks := t, snapLed := leds }

/-- Writes the input frame (R36). -/
def State.withFrame (s : State) (m : Memory) : State := { s with inFrame := m }

/-- Replaces what is still to come of the schedule. -/
def State.withSchedule (s : State) (es : List Event) : State := { s with schedule := es }

/-- Hands a value to a caller; nothing of the block changes (R35, R52). -/
def State.giveBack (s : State) (r : Returned) : State := { s with returned := r :: s.returned }

/-- R86: `raise Fault(reason)` sets the mark `faulted`. -/
def raiseFault (r : Fault) (s : State) : State := { s with faulted := some r }

/-- R87: `refuse(reason)` sets the mark `refused` and takes no step. -/
def refuse (r : Refusal) (s : State) : State := { s with refused := some r }

/-! ## Frame and output accesses (R30, R31) -/

/-- R30: `FrameRead(k)`. An offset outside the frame cannot be spelled. -/
def frameRead (s : State) (k : Fin Config.frameSize) : Byte := Memory.read s.inFrame k.val

/-- R36: `in_frame[k] <- v`. -/
def frameWrite (s : State) (k : Nat) (v : Byte) : State := s.withFrame (Memory.write s.inFrame k v)

/-- R31, R81: `OutWrite(i, f i)` for every `i`, with the effective brightness that scaled them. -/
def outWriteAll (s : State) (eff : Byte) (f : Fin Config.nLed → Byte) : State :=
  s.withOutputs eff (Vector.ofFn f)

/-! ## The tick counter (R56, R57) and the tick interrupt (R91 to R93) -/

/-- R56: `TickRead()`. -/
def tickRead (s : State) : Byte := s.tickCount

/-- R57: `TickReset()`. It also restarts the hidden timer phase, which has no effect in the untimed model
(R20, log entry 6). -/
def tickReset (s : State) : State := s.withTick 0

/-- R92: taking the tick interrupt is the increment of `tick_count` modulo `2^8` and nothing more: no
register is saved, and there is no vector, no mode and no stack. -/
def takeTickInterrupt (s : State) : State := s.withTick (tickRead s + 1)

/-- R93: the return restores nothing and re-enables nothing. -/
def returnFromTickInterrupt (s : State) : State := s

end Sys2Proof.Machine
end

