-- ==== Sys2Proof/Machine/Causes.lean ====
section
/-! DEFINITION. The numbered cause codes of spec/60_exceptions.md R90. -/

namespace Sys2Proof.Machine

/-- R90: a fault's code. -/
def faultCode : Fault → Nat
  | .unwrittenOutput _ => 16

/-- R90: a refusal's code; none for the model's own reasons, which the spec does not number. -/
def refusalCode : Refusal → Option Nat
  | .reservedOp _ => some 1
  | .reservedBits _ => some 2
  | .offsetOutOfFrame _ _ => some 3
  | .operandWidth _ => some 4
  | .phaseOrder _ _ => some 5
  | _ => none

/-- R90: the refusal a decoding error becomes, with the value recorded. -/
def decodeRefusal (w : Word) : DecodeError → Refusal
  | .reservedOp => .reservedOp w
  | .reservedBits => .reservedBits w
  | .offsetOutOfFrame k => .offsetOutOfFrame w k

end Sys2Proof.Machine
end

