-- ==== Sys2Proof/Decode.lean ====
section
/-! DEFINITION. The decoder, total on 32-bit words, in the order of spec/30_encoding.md R51, and the encoder,
both from the format tables of R45 and R46. -/

namespace Sys2Proof

/-- R45: the operation code's four bits. -/
def OpCode.bits : OpCode → BitVec 4
  | .rst => 0b0000
  | .tick => 0b0001
  | .sample => 0b0010
  | .commit => 0b0011
  | .hostWr => 0b0100
  | .fOffmap => 0b1000
  | .fNext => 0b1001
  | .fScale => 0b1010

/-- R45: the operation a code names, or none where the code is reserved (R49). -/
def opOf (c : BitVec 4) : Option OpCode :=
  match c.toNat with
  | 0 => some .rst
  | 1 => some .tick
  | 2 => some .sample
  | 3 => some .commit
  | 4 => some .hostWr
  | 8 => some .fOffmap
  | 9 => some .fNext
  | 10 => some .fScale
  | _ => none

/-- R11: `w[lo+len-1 : lo]`. -/
def bitsAt (w : Word) (lo len : Nat) : BitVec len := w.extractLsb' lo len

/-- R46, R48: whether the reserved bits of the operation's format are all zero (S: 27:0; H: 27:26 and 15:8;
F1: 27:8; F2: 27:26; F3: 27:16). -/
def OpCode.reservedZero (op : OpCode) (w : Word) : Bool :=
  match op with
  | .rst => bitsAt w 0 28 == 0
  | .tick => bitsAt w 0 28 == 0
  | .sample => bitsAt w 0 28 == 0
  | .commit => bitsAt w 0 28 == 0
  | .hostWr => bitsAt w 26 2 == 0 && bitsAt w 8 8 == 0
  | .fOffmap => bitsAt w 8 20 == 0
  | .fNext => bitsAt w 26 2 == 0
  | .fScale => bitsAt w 16 12 == 0

/-- R44: `op = w[31:28]`. -/
def opField (w : Word) : BitVec 4 := bitsAt w 28 4

/-- R47: `k = w[25:16]`. -/
def kField (w : Word) : BitVec 10 := bitsAt w 16 10

/-- R47: `w[7:0]`, the field `v` of format H, `p` of F1 and F2, `b` of F3. -/
def lowField (w : Word) : Byte := bitsAt w 0 8

/-- R47: `w[15:8]`, the field `m` of format F2 and `r` of F3. -/
def midField (w : Word) : Byte := bitsAt w 8 8

/-- R47: `t = w[23:16]`. -/
def tField (w : Word) : Byte := bitsAt w 16 8

/-- R47: `s = w[25]`, 0 for OFF and 1 for ON (D3). -/
def sField (w : Word) : StrobeState := if bitsAt w 25 1 = 0 then .off else .on

/-- R47: `a = w[24]`. -/
def aField (w : Word) : Bool := bitsAt w 24 1 != 0

/-- R46, R47, R50: the operation with its fields, once the reserved bits are known to be zero. -/
def decodeFields (op : OpCode) (w : Word) : Except DecodeError Instr :=
  match op with
  | .rst => .ok .rst
  | .tick => .ok .tick
  | .sample => .ok .sample
  | .commit => .ok .commit
  | .hostWr =>
    if (kField w).toNat ≤ lastOffset then .ok (.hostWr (kField w) (lowField w))
    else .error (.offsetOutOfFrame (kField w))
  | .fOffmap => .ok (.fOffmap (lowField w))
  | .fNext => .ok (.fNext (sField w) (aField w) (tField w) (midField w) (lowField w))
  | .fScale => .ok (.fScale (midField w) (lowField w))

/-- R51: the checks run in the order R49, R48, R50, and the first that fails names the refusal. -/
def decode (w : Word) : Except DecodeError Instr :=
  match opOf (opField w) with
  | none => .error .reservedOp
  | some op => if op.reservedZero w then decodeFields op w else .error .reservedBits

/-- The operation code of an operation (R45). -/
def Instr.opCode : Instr → OpCode
  | .rst => .rst
  | .tick => .tick
  | .sample => .sample
  | .commit => .commit
  | .hostWr _ _ => .hostWr
  | .fOffmap _ => .fOffmap
  | .fNext _ _ _ _ _ => .fNext
  | .fScale _ _ => .fScale

/-- R14, D3: OFF is 0 and ON is 1. -/
def StrobeState.bit : StrobeState → BitVec 1
  | .off => 0
  | .on => 1

/-- R18: READY is 0 and SAMPLED is 1. -/
def Phase.bit : Phase → BitVec 1
  | .ready => 0
  | .sampled => 1

/-- R46: a word from its code, at bit 28, and its fields, each already at its place. -/
def wordOf (op : OpCode) (fields : Nat) : Word := BitVec.ofNat 32 (op.bits.toNat * 0x10000000 + fields)

/-- R46: the word of an operation, every field at its place and every reserved bit 0. -/
def encode : Instr → Word
  | .rst => wordOf .rst 0
  | .tick => wordOf .tick 0
  | .sample => wordOf .sample 0
  | .commit => wordOf .commit 0
  | .hostWr k v => wordOf .hostWr (k.toNat * 0x10000 + v.toNat)
  | .fOffmap p => wordOf .fOffmap p.toNat
  | .fNext s a t m p => wordOf .fNext
      (s.bit.toNat * 0x2000000 + a.toNat * 0x1000000 + t.toNat * 0x10000 + m.toNat * 0x100 + p.toNat)
  | .fScale r b => wordOf .fScale (r.toNat * 0x100 + b.toNat)

/-- The instruction the decoder reads from a row's bits, numbered as spec/opcode_table.json numbers them:
a word is a value, so its bits are the table's bits (R44). A row of more than 32 bits is no word. -/
def decodeTableWord (nbits w : Nat) : Option Instr :=
  if nbits ≤ 32 then (decode (BitVec.ofNat 32 (w % 2 ^ nbits))).toOption else none

end Sys2Proof
end

