-- ==== Sys2Proof/Machine/HostAccess.lean ====
section
/-! DEFINITION. What the host does: writing the input frame (spec/20_memory.md R36) and reading the output
ports (spec/10_state.md R26, spec/60_exceptions.md R89, R101). -/

namespace Sys2Proof.Machine

/-- R36: HOST_WR writes one byte of the frame and no block register. An offset past the frame is
refused (R50). -/
def execHostWr (k : BitVec 10) (v : Byte) (s : State) : Host.Outcome State Fault Refusal :=
  if k.toNat ≤ lastOffset then .next (frameWrite s k.toNat v)
  else .refused (.offsetOutOfFrame (encode (.hostWr k v)) k)

/-- A read of a register that may be unwritten: R25 says that it "may not be read" while it is, and R89 that the
read "raises `Fault(UnwrittenOutput)`". -/
def readWritten (s : State) (p : Port) (v : Byte) : Except Fault PortValue :=
  if s.outputsWritten then .ok (.byte v) else .error (.unwrittenOutput p)

/-- R26: what each output port shows. -/
def observe (s : State) (p : Port) : Except Fault PortValue :=
  match p with
  | .ledOut i => readWritten s p s.ledOut[i]
  | .obsTicks => .ok (.byte (tickRead s))
  | .obsState => .ok (.bit s.strobeState.bit)
  | .obsWas => .ok (.bit (BitVec.ofBool s.wasActive))
  | .obsEff => readWritten s p s.effOut
  | .obsPhase => .ok (.bit s.phase.bit)

/-- R35, R101: a host read of a port. It changes nothing of the block; the value goes to the host. -/
def readPort (p : Port) (s : State) : Host.Outcome State Fault Refusal :=
  match observe s p with
  | .ok v => .next (s.giveBack (.port p v))
  | .error f => .fault f

end Sys2Proof.Machine
end

