-- ==== Sys2Proof/Machine/Reset.lean ====
section
/-! DEFINITION. The meaning of RST (spec/70_reset_and_hazards.md). -/

namespace Sys2Proof.Machine

/-- R103, R27: every register takes its reset value, and the outputs become unwritten. The input frame
and the marks `faulted` and `refused` stay (R21, R86), as do the model's own schedule and results. -/
def resetRegisters (s : State) : State :=
  { State.reset with
    inFrame := s.inFrame, faulted := s.faulted, refused := s.refused,
    schedule := s.schedule, returned := s.returned }

/-- R103: RST, at any step boundary and in either phase. -/
def execRst (s : State) : Host.Outcome State Fault Refusal := .next (resetRegisters s)

end Sys2Proof.Machine
end

