-- ==== Sys2Proof/Machine/Operands.lean ====
section
/-! DEFINITION. Where operands come from: the named offsets of the input frame (spec/20_memory.md R28,
spec/10_state.md R26) and the widening of bytes (spec/30_encoding.md R47). -/

namespace Sys2Proof.Machine

/-- R28: offset 0 is `masterRaw`. -/
def masterOffset : Fin Config.frameSize := ⟨0, by decide⟩

/-- R28: offset 1 is `speed`. -/
def speedOffset : Fin Config.frameSize := ⟨1, by decide⟩

/-- R28: offset `2+i` is the raw value of LED `i`. -/
def ledOffset (i : Fin Config.nLed) : Fin Config.frameSize := ⟨2 + i.val, by have := i.isLt; show 2 + i.val < Config.nLed + 2; omega⟩

/-- R26: the port `in_master`. -/
def inMaster (s : State) : Byte := frameRead s masterOffset

/-- R26: the port `in_speed`. -/
def inSpeed (s : State) : Byte := frameRead s speedOffset

/-- R26: the port `in_led[i]`. -/
def inLed (s : State) (i : Fin Config.nLed) : Byte := frameRead s (ledOffset i)

/-- R66: the eight LED bytes SAMPLE latches. -/
def inLeds (s : State) : Vector Byte Config.nLed := Vector.ofFn (inLed s)

/-- R11: `zext_16`. -/
def zext16 (b : Byte) : Half := b.setWidth 16

/-- The low byte of a result the rules show to lie in 0..255 (R61, R80). -/
def low8 (h : Half) : Byte := h.setWidth 8

end Sys2Proof.Machine
end

