-- ==== Sys2Proof/Machine/Flags.lean ====
section
/-! DEFINITION. The block's two flags, `strobe_state` and `was_active` (spec/42_strobe_state_machine.md R76):
how `was_active` is computed and how a rising edge is told. -/

namespace Sys2Proof.Machine

/-- R15, R76, R77: `was_active <- (snap_speed != 0)`. -/
def activeFlag (p : Byte) : Bool := decide (p ≠ 0)

/-- R69, R15: speed nonzero in this iteration and zero in the previous one. -/
def risingEdge (a : Bool) (p : Byte) : Bool := activeFlag p && !a

/-- R69: on a rising edge the state is forced to ON. -/
def forcedState (edge : Bool) (s : StrobeState) : StrobeState := if edge then .on else s

/-- R69, D8: on a rising edge the lit-phase test sees the tick value 0 that the reset gives. -/
def forcedTicks (edge : Bool) (t : Byte) : Byte := if edge then 0 else t

end Sys2Proof.Machine
end

