-- ==== Sys2Proof/Machine/RateMapper.lean ====
section
/-! DEFINITION. The strobe rate mapper (spec/41_strobe_rate_mapper.md). -/

namespace Sys2Proof.Machine

/-- R61: `(51000 - p * 190) / 255` on the 16-bit unsigned datapath of R65, truncating. -/
def offMap (p : Byte) : Byte :=
  low8 ((Config.offNum - zext16 p * Config.offStep) / Config.offDen)

/-- R61: `F_OFFMAP p`, a unit call: it returns its result and changes no block state (R52). -/
def execFOffmap (p : Byte) (s : State) : Host.Outcome State Fault Refusal :=
  .next (s.giveBack (.offTicks (offMap p)))

end Sys2Proof.Machine
end

