-- ==== Sys2Proof/Machine/Scaler.lean ====
section
/-! DEFINITION. The fixed-point brightness scaler (spec/43_brightness_scaler.md). -/

namespace Sys2Proof.Machine

/-- R80: `(zext_16(r) * zext_16(b)) / 255`, truncating, with the product 16 bits wide (R84). -/
def scale (r b : Byte) : Byte := low8 ((zext16 r * zext16 b) / Config.scaleDen)

/-- R81: the scaler stage of COMMIT, every lane from its own snapshot byte and the one `eff` (R82). -/
def scaleStage (s : State) (eff : Byte) : State :=
  outWriteAll s eff fun i => scale s.snapLed[i] eff

/-- R80: `F_SCALE r, b`, a unit call: it returns its result and changes no block state (R52). -/
def execFScale (r b : Byte) (s : State) : Host.Outcome State Fault Refusal :=
  .next (s.giveBack (.scaled (scale r b)))

end Sys2Proof.Machine
end

