-- ==== Sys2Proof/Machine/Strobe.lean ====
section
/-! DEFINITION. The strobe state machine and the control-loop iteration (spec/42_strobe_state_machine.md). -/

namespace Sys2Proof.Machine

/-- R70: the lit phase, whose test is inclusive (R72); `edge` is the tick reset a rising edge asked for. -/
def litPhase (t m : Byte) (edge : Bool) : Transition :=
  if t ≥ Config.onTimeTicks then ⟨.off, 0, true⟩ else ⟨.on, m, edge⟩

/-- R71: the dark phase, whose test is strict (R72). -/
def darkPhase (t m p : Byte) : Transition :=
  if t > offMap p then ⟨.on, m, true⟩ else ⟨.off, 0, false⟩

/-- R67: the pure transition function `F_NEXT(s, a, t, m, p)`. Speed 0 is R68, a rising edge is R69. -/
def transition (s : StrobeState) (a : Bool) (t m p : Byte) : Transition :=
  if p = 0 then ⟨.on, m, false⟩
  else
    let edge := risingEdge a p
    match forcedState edge s with
    | .on => litPhase (forcedTicks edge t) m edge
    | .off => darkPhase (forcedTicks edge t) m p

/-- R67: `F_NEXT s, a, t, m, p`, a unit call: it returns its result and changes no block state (R52). -/
def execFNext (s : StrobeState) (a : Bool) (t m p : Byte) (st : State) : Host.Outcome State Fault Refusal :=
  .next (st.giveBack (.transition (transition s a t m p)))

/-- R66: SAMPLE latches the frame and the tick counter. Out of phase it is refused (R88). -/
def execSample (s : State) : Host.Outcome State Fault Refusal :=
  match s.phase with
  | .ready =>
    .next ((s.withSnapshot (inMaster s) (inSpeed s) (tickRead s) (inLeds s)).withPhase .sampled)
  | .sampled => .refused (.phaseOrder (encode .sample) s.phase)

/-- R76: the call COMMIT makes of the transition function. -/
def commitTransition (s : State) : Transition :=
  transition s.strobeState s.wasActive s.snapTicks s.snapMaster s.snapSpeed

/-- R76, R57: the tick reset, when the transition asks for one. -/
def tickResetIf (rr : Bool) (s : State) : State := if rr then tickReset s else s

/-- R76: what COMMIT writes, in the order of the rule. -/
def commitWrites (s : State) : State :=
  let r := commitTransition s
  let s1 := s.withFlags r.ns (activeFlag s.snapSpeed)
  let s2 := scaleStage s1 r.eff
  (tickResetIf r.rr s2).withPhase .ready

/-- R76: COMMIT finishes the iteration. Out of phase it is refused (R88). -/
def execCommit (s : State) : Host.Outcome State Fault Refusal :=
  match s.phase with
  | .sampled => .next (commitWrites s)
  | .ready => .refused (.phaseOrder (encode .commit) s.phase)

end Sys2Proof.Machine
end

