-- ==== Sys2Proof/Machine/TickCounter.lean ====
section
/-! DEFINITION. The meaning of TICK (spec/40_tick_counter.md). -/

namespace Sys2Proof.Machine

/-- R55: `tick_count <- (tick_count + 1) mod 2^8`, in every state: one event of the tick interrupt, taken
and returned from in one atomic step (R40, R91, R92, R93). -/
def execTick (s : State) : Host.Outcome State Fault Refusal :=
  .next (returnFromTickInterrupt (takeTickInterrupt s))

end Sys2Proof.Machine
end

