-- ==== Sys2Proof/Machine/Dispatch.lean ====
section
/-! DEFINITION. One arm per constructor of `Instr`, each a direct call of its meaning. -/

namespace Sys2Proof.Machine

def exec (i : Instr) (s : State) : Host.Outcome State Fault Refusal :=
  match i with
  | .rst => Sys2Proof.Machine.execRst s
  | .tick => Sys2Proof.Machine.execTick s
  | .sample => Sys2Proof.Machine.execSample s
  | .commit => Sys2Proof.Machine.execCommit s
  | .hostWr k v => Sys2Proof.Machine.execHostWr k v s
  | .fOffmap p => Sys2Proof.Machine.execFOffmap p s
  | .fNext n a t m p => Sys2Proof.Machine.execFNext n a t m p s
  | .fScale r b => Sys2Proof.Machine.execFScale r b s

end Sys2Proof.Machine
end

