-- ==== Sys2Proof/Machine/Schedule.lean ====
section
/-! DEFINITION. What one event of the interleaving does (spec/00_scope.md R10, spec/20_memory.md R38), and
runs of operations. -/

namespace Sys2Proof.Machine

/-- A word of a schedule: decoded (R51) and performed, or refused by the check that fails first. -/
def performWord (w : Word) (s : State) : Host.Outcome State Fault Refusal :=
  match decode w with
  | .ok i => exec i s
  | .error e => .refused (decodeRefusal w e)

/-- An event: an operation word, or a host read of a port (R101). -/
def performEvent (e : Event) (s : State) : Host.Outcome State Fault Refusal :=
  match e with
  | .word w => performWord w s
  | .read p => readPort p s

/-- The event at the head of the schedule. A run ends after its last word (R102). -/
def performNext (s : State) : Host.Outcome State Fault Refusal :=
  match s.schedule with
  | [] => .refused .scheduleEnded
  | e :: rest => performEvent e (s.withSchedule rest)

/-- R86: a faulted state has no further steps. -/
def performUnlessFaulted (s : State) : Host.Outcome State Fault Refusal :=
  match s.faulted with
  | some f => .fault f
  | none => performNext s

/-- The operations of a list in order, up to the first fault or refusal. -/
def runInstrs : List Instr → State → Host.Outcome State Fault Refusal
  | [], s => .next s
  | i :: is, s =>
    match exec i s with
    | .next t => runInstrs is t
    | .fault f => .fault f
    | .refused r => .refused r

end Sys2Proof.Machine
end

