-- ==== Sys2Proof/Machine/Step.lean ====
section
/-! DEFINITION. One step of the machine: the next event of the interleaving, performed on the state that
all earlier events left (spec/20_memory.md R38). -/

namespace Sys2Proof.Machine

/-- One step. -/
def step (s : State) : Host.Outcome State Fault Refusal := performUnlessFaulted s

/-- The state whose next event is the operation word of a table row (log entries 1 and 2). -/
def State.withFetchWord (s : State) (nbits w : Nat) : State :=
  s.withSchedule (.word (BitVec.ofNat 32 (w % 2 ^ nbits)) :: s.schedule)

end Sys2Proof.Machine
end

