-- ==== Sys2Proof/Machine/Agents.lean ====
section
/-! DEFINITION. Who performs an operation (spec/30_encoding.md R45, R52) and when it is enabled
(spec/10_state.md R18, spec/40_tick_counter.md R55, spec/60_exceptions.md R88, R95). -/

namespace Sys2Proof.Machine

/-- R45: the performer column of the operation codes. -/
def performer : Instr → Performer
  | .rst => .environment
  | .tick => .ticker
  | .sample => .loop
  | .commit => .loop
  | .hostWr _ _ => .host
  | .fOffmap _ => .unitTest
  | .fNext _ _ _ _ _ => .unitTest
  | .fScale _ _ => .unitTest

/-- R52: whether an operation is a step; a unit call is none. -/
def isStep (i : Instr) : Bool := decide (performer i ≠ .unitTest)

/-- When an operation may be performed: SAMPLE and COMMIT in their phase (R18), HOST_WR inside the frame
(R36), everything else always (R55, R95, R103). -/
def enabled (i : Instr) (s : State) : Bool :=
  match i with
  | .rst => true
  | .tick => true
  | .sample => decide (s.phase = .ready)
  | .commit => decide (s.phase = .sampled)
  | .hostWr k _ => decide (k.toNat ≤ lastOffset)
  | .fOffmap _ => true
  | .fNext _ _ _ _ _ => true
  | .fScale _ _ => true

end Sys2Proof.Machine
end

