-- ==== Sys2Proof/Machine/Assembler.lean ====
section
/-! DEFINITION. The schedule notation: the syntax of a line (spec/30_encoding.md R53) and the
pseudo-operations (R54). Text is read as a list of characters. -/

namespace Sys2Proof.Machine

/-! ## Pseudo-operations -/

/-- R54: `ITERATE` is SAMPLE then COMMIT. -/
def iterateInstrs : List Instr := [.sample, .commit]

/-- R54: `SETM v`, `SETS v` and `SETL i, v` are HOST_WR at the offset of R28. -/
def setInstr (k : Nat) (v : Byte) : Instr := .hostWr (BitVec.ofNat 10 k) v

/-- R54: each pseudo-operation is exactly its expansion. -/
def expand : Pseudo → List Instr
  | .iterate => iterateInstrs
  | .ticks n => List.replicate n .tick
  | .setM v => [setInstr 0 v]
  | .setS v => [setInstr 1 v]
  | .setL i v => [setInstr (2 + i.val) v]
  | .drive m p leds =>
    setInstr 0 m :: setInstr 1 p :: (List.finRange Config.nLed).map fun i => setInstr (2 + i.val) leds[i]

/-- The operations of a line. -/
def lineInstrs : Line → List Instr
  | .blank => []
  | .op i => [i]
  | .pseudo p => expand p

/-! ## Operands -/

/-- R53: an operand that does not fit its field is refused. -/
def fieldOf (w : Nat) : Operand → Except AsmError (BitVec w)
  | .num n => if n < 2 ^ w then .ok (BitVec.ofNat w n) else .error .operandWidth
  | .state _ => .error .malformed

/-- R53: `s` is a 1-bit number, or `OFF` or `ON`. -/
def stateOf : Operand → Except AsmError StrobeState
  | .state s => .ok s
  | .num 0 => .ok .off
  | .num 1 => .ok .on
  | .num _ => .error .operandWidth

/-- R54: the LED number of `SETL`, `0 <= i < N_LED`. -/
def ledOf : Operand → Except AsmError (Fin Config.nLed)
  | .num n => if h : n < Config.nLed then .ok ⟨n, h⟩ else .error .malformed
  | .state _ => .error .malformed

/-- R54: the LED bytes of `DRIVE`, from as many operands as there are LEDs (`lineOf` counts them). -/
def ledsOf (os : List Operand) : Except AsmError (Vector Byte Config.nLed) :=
  match os.mapM (fieldOf 8) with
  | .ok bs => .ok (Vector.ofFn fun i => bs.getD i.val 0)
  | .error e => .error e

/-- R53, R54: the line a mnemonic and its operands make. R53 does not say which reason names a line that fails
in several ways. DESIGN CHOICE, safe (log entry 10): the mnemonic and the number of operands come first, and
the operands are then taken from left to right, the first that fails naming the reason. -/
def lineOf (mnemonic : String) (operands : List Operand) : Except AsmError Line :=
  match mnemonic, operands with
  | "RST", [] => .ok (.op .rst)
  | "TICK", [] => .ok (.op .tick)
  | "SAMPLE", [] => .ok (.op .sample)
  | "COMMIT", [] => .ok (.op .commit)
  | "HOST_WR", [k, v] => do return .op (.hostWr (← fieldOf 10 k) (← fieldOf 8 v))
  | "F_OFFMAP", [p] => do return .op (.fOffmap (← fieldOf 8 p))
  | "F_NEXT", [s, a, t, m, p] => do
    return .op (.fNext (← stateOf s) ((← fieldOf 1 a) == 1) (← fieldOf 8 t) (← fieldOf 8 m) (← fieldOf 8 p))
  | "F_SCALE", [r, b] => do return .op (.fScale (← fieldOf 8 r) (← fieldOf 8 b))
  | "ITERATE", [] => .ok (.pseudo .iterate)
  | "TICKS", [.num n] => .ok (.pseudo (.ticks n))
  | "SETM", [v] => do return .pseudo (.setM (← fieldOf 8 v))
  | "SETS", [v] => do return .pseudo (.setS (← fieldOf 8 v))
  | "SETL", [i, v] => do return .pseudo (.setL (← ledOf i) (← fieldOf 8 v))
  | "DRIVE", m :: p :: leds =>
    if leds.length = Config.nLed then do
      return .pseudo (.drive (← fieldOf 8 m) (← fieldOf 8 p) (← ledsOf leds))
    else .error .malformed
  | _, _ => .error .malformed

/-! ## Text -/

/-- A digit's value, in any base up to 16. -/
def digitValue (c : Char) : Option Nat :=
  if '0' ≤ c ∧ c ≤ '9' then some (c.toNat - '0'.toNat)
  else if 'a' ≤ c ∧ c ≤ 'f' then some (c.toNat - 'a'.toNat + 10)
  else if 'A' ≤ c ∧ c ≤ 'F' then some (c.toNat - 'A'.toNat + 10)
  else none

/-- Reads digits of a base after a value already read. -/
def readDigits (base : Nat) : List Char → Nat → Option Nat
  | [], acc => some acc
  | c :: cs, acc =>
    match digitValue c with
    | some d => if d < base then readDigits base cs (acc * base + d) else none
    | none => none

/-- R53: a number is decimal, or `0x` and hexadecimal. -/
def readNumber : List Char → Option Nat
  | '0' :: 'x' :: c :: cs => readDigits 16 (c :: cs) 0
  | c :: cs => readDigits 10 (c :: cs) 0
  | [] => none

/-- R53: one operand. -/
def readOperand (cs : List Char) : Except AsmError Operand :=
  match cs with
  | ['O', 'F', 'F'] => .ok (.state .off)
  | ['O', 'N'] => .ok (.state .on)
  | _ =>
    match readNumber cs with
    | some n => .ok (.num n)
    | none => .error .malformed

/-- R53: operands are separated by a comma and a space; `acc` is the operand read so far, reversed. -/
def splitOperands : List Char → List Char → List (List Char)
  | [], acc => [acc.reverse]
  | ',' :: ' ' :: cs, acc => acc.reverse :: splitOperands cs []
  | c :: cs, acc => splitOperands cs (c :: acc)

/-- The lines of a text; `acc` is the line read so far, reversed. -/
def splitLines : List Char → List Char → List (List Char)
  | [], acc => [acc.reverse]
  | '\n' :: cs, acc => acc.reverse :: splitLines cs []
  | c :: cs, acc => splitLines cs (c :: acc)

/-- Drops spaces at both ends. -/
def trimSpaces (cs : List Char) : List Char :=
  ((cs.dropWhile (· == ' ')).reverse.dropWhile (· == ' ')).reverse

/-- R53: what a line says before its comment. -/
def withoutComment (cs : List Char) : List Char := trimSpaces (cs.takeWhile (· != ';'))

/-- R53: a line is a mnemonic, then a space, then its operands. DESIGN CHOICE, safe (log entry 10): an operand
that is no number and no state name makes the line malformed before any width is checked. -/
def readLine (cs : List Char) : Except AsmError Line :=
  match withoutComment cs with
  | [] => .ok .blank
  | c :: rest =>
    let body := c :: rest
    let mnemonic := String.ofList (body.takeWhile (· != ' '))
    match body.dropWhile (· != ' ') with
    | [] => lineOf mnemonic []
    | _ :: operands =>
      match (splitOperands operands []).mapM readOperand with
      | .ok os => lineOf mnemonic os
      | .error e => .error e

/-- R53, R90: the refusal a bad line becomes, with the source line recorded. -/
def lineRefusal (line : String) : AsmError → Refusal
  | .operandWidth => .operandWidth line
  | .malformed => .malformedLine line

/-- The words of one line. -/
def assembleLine (cs : List Char) : Except Refusal (List Word) :=
  match readLine cs with
  | .ok l => .ok ((lineInstrs l).map encode)
  | .error e => .error (lineRefusal (String.ofList cs) e)

/-- The words of a list of lines; the first bad line is refused (DESIGN CHOICE, safe: log entry 10). -/
def assembleLines : List (List Char) → Except Refusal (List Word)
  | [] => .ok []
  | l :: ls =>
    match assembleLine l with
    | .error r => .error r
    | .ok ws =>
      match assembleLines ls with
      | .error r => .error r
      | .ok vs => .ok (ws ++ vs)

/-- R53: the words of a schedule's text. -/
def assemble (text : String) : Except Refusal (List Word) := assembleLines (splitLines text.toList [])

/-- A schedule's text handed to the machine: its words come after what is still to come. A text the
assembler turns away only sets the mark (R53, R87). -/
def loadText (text : String) (s : State) : State :=
  match assemble text with
  | .ok ws => s.withSchedule (s.schedule ++ ws.map .word)
  | .error r => refuse r s

end Sys2Proof.Machine
end

