-- ==== Sys2Proof/Machine/Marks.lean ====
section
/-! DEFINITION. The state after an event whatever its outcome: the marks `faulted` and `refused` of
spec/10_state.md R21 (spec/60_exceptions.md R86, R87). -/

namespace Sys2Proof.Machine

/-- R86, R87: an outcome's state: the next state, or the state it stopped in with its mark set. -/
def settle (s : State) : Host.Outcome State Fault Refusal → State
  | .next t => t
  | .fault f => raiseFault f s
  | .refused r => refuse r s

/-- The state after the next event. An event that faults or is refused takes no step but is past; a
faulted state stays as it is (R86), and so does the state at the end of a schedule (R102). -/
def afterEvent (s : State) : State :=
  match s.faulted, s.schedule with
  | some _, _ => s
  | none, [] => s
  | none, _ :: rest => settle (s.withSchedule rest) (step s)

/-- The state after at most `n` events. -/
def afterEvents : Nat → State → State
  | 0, s => s
  | n + 1, s => afterEvents n (afterEvent s)

end Sys2Proof.Machine
end

