-- ==== Sys2Proof/Safety.lean ====
section
/-! DEFINITION. What claims are stated in: a clean run, the invariant, infinite runs and their fairness
(spec/40_tick_counter.md R60, spec/60_exceptions.md R98), and when two states show the same outputs. -/

namespace Sys2Proof.Machine

/-- R87: nothing refused and nothing faulted, the premise of a claim about a schedule. -/
def State.clean (s : State) : Bool := s.faulted.isNone && s.refused.isNone

/-- What holds of the block in every state that a run from reset reaches. -/
structure BlockInv (s : State) : Prop where
  /-- The frame is in canonical form. -/
  frame_canonical : Memory.wf s.inFrame = true
  /-- R28: no byte lies outside the offsets `0 .. N_LED+1`. -/
  frame_bounded : Memory.inFrameSpace s.inFrame = true
  /-- R27: before the first COMMIT the flags hold their reset values. -/
  unwritten_flags : s.outputsWritten = false → s.strobeState = .off ∧ s.wasActive = false
  /-- R68: a COMMIT with speed 0 leaves the state ON. -/
  disabled_on : s.outputsWritten = true → s.wasActive = false → s.strobeState = .on
  /-- R73: the effective brightness is 0 when the state is OFF. -/
  dark_eff : s.outputsWritten = true → s.strobeState = .off → s.effOut = 0
  /-- R83: no output exceeds the effective brightness that scaled it. -/
  lanes_bounded : s.outputsWritten = true → ∀ i : Fin Config.nLed, s.ledOut[i] ≤ s.effOut

/-- An infinite interleaving of operations (R38): each is performed on the state the one before left. -/
structure Run where
  /-- The operation performed at each position. -/
  instr : Nat → Instr
  /-- The state each operation finds. -/
  state : Nat → State
  /-- Every operation takes its step. -/
  follows : ∀ n, exec (instr n) (state n) = .next (state (n + 1))

/-- R60: TICKER takes infinitely many steps. -/
def Run.tickFair (r : Run) : Prop := ∀ n, ∃ m, n ≤ m ∧ r.instr m = .tick

/-- R98: LOOP takes infinitely many steps. -/
def Run.loopFair (r : Run) : Prop := ∀ n, ∃ m, n ≤ m ∧ performer (r.instr m) = .loop

/-- No RST in the run. -/
def Run.noReset (r : Run) : Prop := ∀ n, r.instr n ≠ .rst

/-- R79, R110: LOOP samples at least once between any two TICKs, and no TICK falls between a SAMPLE and its
COMMIT. -/
def Run.samplesEveryTick (r : Run) : Prop :=
  (∀ a b, a < b → r.instr a = .tick → r.instr b = .tick → ∃ c, a < c ∧ c < b ∧ r.instr c = .sample) ∧
  (∀ n, r.instr n = .tick → (r.state n).phase = .ready)

/-- R79: one tick of the sampling regime: a TICK and then `k + 1` whole iterations. -/
def tickRound (k : Nat) : List Instr := .tick :: (List.replicate (k + 1) iterateInstrs).flatten

/-- R79: ticks of the sampling regime, one for each number of the list. -/
def tickRounds (ks : List Nat) : List Instr := ks.flatMap tickRound

/-- R75, R105: two states that differ at most in the tick counter, its latched copy and `strobe_state`, and
that agree in these, as far as a later COMMIT reads them, once `was_active` is set. -/
def SameOutputs (s t : State) : Prop :=
  t = { s with tickCount := t.tickCount, strobeState := t.strobeState, snapTicks := t.snapTicks } ∧
  (s.wasActive = true →
    t.tickCount = s.tickCount ∧ t.strobeState = s.strobeState ∧
    (s.phase = .sampled → t.snapTicks = s.snapTicks))

/-- Every register of the block, the frame and the marks are the same in both states; only what callers were
given or what is still to come may differ (R52). -/
def SameBlock (s t : State) : Prop :=
  t = { s with schedule := t.schedule, returned := t.returned }

/-- Along a list of operations, every COMMIT finds a state with `P`. -/
def commitsFind (P : State → Prop) : List Instr → State → Prop
  | [], _ => True
  | i :: is, s => (i = .commit → P s) ∧ ∀ t, exec i s = .next t → commitsFind P is t

/-- R45, R49: `w[31:28]` is one of the eight reserved codes. -/
def reservedCode (w : Word) : Prop := w.toNat / 2 ^ 28 ∈ [5, 6, 7, 11, 12, 13, 14, 15]

/-- R46, R48: a bit shown as 0 in the format of the word's code is set. -/
def reservedBitSet (w : Word) : Prop :=
  (w.toNat / 2 ^ 28 ≤ 3 ∧ w.toNat % 2 ^ 28 ≠ 0) ∨
  (w.toNat / 2 ^ 28 = 4 ∧ (w.toNat / 2 ^ 26 % 2 ^ 2 ≠ 0 ∨ w.toNat / 2 ^ 8 % 2 ^ 8 ≠ 0)) ∨
  (w.toNat / 2 ^ 28 = 8 ∧ w.toNat / 2 ^ 8 % 2 ^ 20 ≠ 0) ∨
  (w.toNat / 2 ^ 28 = 9 ∧ w.toNat / 2 ^ 26 % 2 ^ 2 ≠ 0) ∨
  (w.toNat / 2 ^ 28 = 10 ∧ w.toNat / 2 ^ 16 % 2 ^ 12 ≠ 0)

/-- R46, R50: a HOST_WR whose field `k` lies past the frame. -/
def offsetPastFrame (w : Word) : Prop := w.toNat / 2 ^ 28 = 4 ∧ w.toNat / 2 ^ 16 % 2 ^ 10 > 9

/-- R87: the outcome is not a stop. -/
def takesStep (o : Host.Outcome State Fault Refusal) : Prop := ∃ t, o = .next t

/-- A row of the decision table of R74: which inputs it matches and what it gives. -/
structure TableRow where
  /-- The row's condition on `s`, `a`, `t` and `p`. -/
  applies : StrobeState → Bool → Byte → Byte → Prop
  /-- The row's result for `m`. -/
  gives : Byte → Transition
  /-- `was_active` after COMMIT. -/
  wasAfter : Bool

/-- R74: the rows T1 to T6, with `off = (51000 - 190 * p) / 255` and `ON_TIME_TICKS = 4` written out. -/
def tableRow : Fin 6 → TableRow
  | 0 => ⟨fun _ _ _ p => p.toNat = 0, fun m => ⟨.on, m, false⟩, false⟩
  | 1 => ⟨fun _ a _ p => p.toNat ≠ 0 ∧ a = false, fun m => ⟨.on, m, true⟩, true⟩
  | 2 => ⟨fun s a t p => p.toNat ≠ 0 ∧ a = true ∧ s = .on ∧ 4 ≤ t.toNat, fun _ => ⟨.off, 0, true⟩, true⟩
  | 3 => ⟨fun s a t p => p.toNat ≠ 0 ∧ a = true ∧ s = .on ∧ t.toNat ≤ 3, fun m => ⟨.on, m, false⟩, true⟩
  | 4 => ⟨fun s a t p => p.toNat ≠ 0 ∧ a = true ∧ s = .off ∧ (51000 - 190 * p.toNat) / 255 < t.toNat,
      fun m => ⟨.on, m, true⟩, true⟩
  | 5 => ⟨fun s a t p => p.toNat ≠ 0 ∧ a = true ∧ s = .off ∧ t.toNat ≤ (51000 - 190 * p.toNat) / 255,
      fun _ => ⟨.off, 0, false⟩, true⟩

end Sys2Proof.Machine
end

