-- ==== Sys2Proof/Certificates/Slice0/Obligations.lean ====
section
/-! DEFINITION. The statements for the provers, each with the rule of the spec it formalises. -/

open Sys2Proof Sys2Proof.Machine

/-! ## Encoding (spec/30_encoding.md) -/

/-- R46, R47: decoding the word of a well-formed operation gives that operation, with every operand at every
value its field admits. -/
def Obligations.DecodeOfEncodeGivesTheOperation : Prop :=
  ∀ i : Instr, i.wf = true → decode (encode i) = .ok i

/-- R46, R47, R51: an accepted word is the word of the well-formed operation it decodes to, so no bit of it is
dropped and no two words mean the same operation. -/
def Obligations.AcceptedWordIsTheOperationsWord : Prop :=
  ∀ (w : Word) (i : Instr), decode w = .ok i → i.wf = true ∧ encode i = w

/-- R48, R50, R51: every word is refused by the first check that fails, in the order reserved code, reserved
bits, offset, or is one defined operation. -/
def Obligations.EveryWordIsOneOperationOrOneRefusal : Prop :=
  ∀ (w : Word) (s : State),
    (reservedCode w → performWord w s = .refused (.reservedOp w)) ∧
    (¬ reservedCode w → reservedBitSet w → performWord w s = .refused (.reservedBits w)) ∧
    (¬ reservedCode w → ¬ reservedBitSet w → offsetPastFrame w →
      performWord w s = .refused (.offsetOutOfFrame w (BitVec.ofNat 10 (w.toNat / 2 ^ 16)))) ∧
    (¬ reservedCode w → ¬ reservedBitSet w → ¬ offsetPastFrame w →
      ∃ i, decode w = .ok i ∧ encode i = w ∧ performWord w s = exec i s)

/-- R45, R46: one word of every operation, written out bit by bit. -/
def Obligations.WrittenOutWordsDecode : Prop :=
  decode 0b00000000000000000000000000000000#32 = .ok .rst ∧
  decode 0b00010000000000000000000000000000#32 = .ok .tick ∧
  decode 0b00100000000000000000000000000000#32 = .ok .sample ∧
  decode 0b00110000000000000000000000000000#32 = .ok .commit ∧
  decode 0b01000000000010010000000011111110#32 = .ok (.hostWr 9 254) ∧
  decode 0b10000000000000000000000000001010#32 = .ok (.fOffmap 10) ∧
  decode 0b10010011000001001100100000001010#32 = .ok (.fNext .on true 4 200 10) ∧
  decode 0b10100000000000000110010010000000#32 = .ok (.fScale 100 128)

/-! ## The schedule notation (spec/30_encoding.md section 5) -/

/-- R54: each pseudo-operation, written with its operands, is exactly its expansion. -/
def Obligations.PseudoOperationsAreTheirExpansions : Prop :=
  ((lineOf "ITERATE" []).map lineInstrs = .ok [.sample, .commit]) ∧
  (∀ n, (lineOf "TICKS" [.num n]).map lineInstrs = .ok (List.replicate n .tick)) ∧
  (∀ v : Byte, (lineOf "SETM" [.num v.toNat]).map lineInstrs = .ok [.hostWr 0 v]) ∧
  (∀ v : Byte, (lineOf "SETS" [.num v.toNat]).map lineInstrs = .ok [.hostWr 1 v]) ∧
  (∀ (i : Fin 8) (v : Byte), (lineOf "SETL" [.num i.val, .num v.toNat]).map lineInstrs =
    .ok [.hostWr (BitVec.ofNat 10 (2 + i.val)) v]) ∧
  (∀ m p l0 l1 l2 l3 l4 l5 l6 l7 : Byte,
    (lineOf "DRIVE" ([m, p, l0, l1, l2, l3, l4, l5, l6, l7].map fun b => .num b.toNat)).map lineInstrs =
      .ok [.hostWr 0 m, .hostWr 1 p, .hostWr 2 l0, .hostWr 3 l1, .hostWr 4 l2, .hostWr 5 l3, .hostWr 6 l4,
        .hostWr 7 l5, .hostWr 8 l6, .hostWr 9 l7])

/-- R53: an operand that does not fit its field is refused as `OperandWidth`, and one that fits is taken as
is, for every operation with operands; the state of `F_NEXT` may be a name or a number. -/
def Obligations.OperandsMustFitTheirFields : Prop :=
  (∀ k v : Nat, lineOf "HOST_WR" [.num k, .num v] =
    if k < 1024 ∧ v < 256 then .ok (.op (.hostWr (BitVec.ofNat 10 k) (BitVec.ofNat 8 v)))
    else .error .operandWidth) ∧
  (∀ p : Nat, lineOf "F_OFFMAP" [.num p] =
    if p < 256 then .ok (.op (.fOffmap (BitVec.ofNat 8 p))) else .error .operandWidth) ∧
  (∀ (n : StrobeState) (a t m p : Nat), lineOf "F_NEXT" [.state n, .num a, .num t, .num m, .num p] =
    if a < 2 ∧ t < 256 ∧ m < 256 ∧ p < 256 then
      .ok (.op (.fNext n (decide (a = 1)) (BitVec.ofNat 8 t) (BitVec.ofNat 8 m) (BitVec.ofNat 8 p)))
    else .error .operandWidth) ∧
  (∀ s a t m p : Nat, lineOf "F_NEXT" [.num s, .num a, .num t, .num m, .num p] =
    if s < 2 ∧ a < 2 ∧ t < 256 ∧ m < 256 ∧ p < 256 then
      .ok (.op (.fNext (if s = 0 then .off else .on) (decide (a = 1)) (BitVec.ofNat 8 t) (BitVec.ofNat 8 m)
        (BitVec.ofNat 8 p)))
    else .error .operandWidth) ∧
  (∀ r b : Nat, lineOf "F_SCALE" [.num r, .num b] =
    if r < 256 ∧ b < 256 then .ok (.op (.fScale (BitVec.ofNat 8 r) (BitVec.ofNat 8 b)))
    else .error .operandWidth)

/-! ## One step and the marks (spec/20_memory.md R38, spec/60_exceptions.md) -/

/-- R38: when the next event is a word that decodes to an operation, the step is that operation on the state
with the word taken off the schedule. The schedule is the model's own field (log entry 1). -/
def Obligations.StepPerformsTheDecodedOperation : Prop :=
  ∀ (s : State) (w : Word) (rest : List Event) (i : Instr),
    s.faulted = none → s.schedule = .word w :: rest → decode w = .ok i →
    step s = exec i { s with schedule := rest }

/-- R90: when the next event is a word that does not decode, the step is refused with the cause's code and the
word recorded. -/
def Obligations.StepRefusesAnUndecodableWord : Prop :=
  ∀ (s : State) (w : Word) (rest : List Event),
    s.faulted = none → s.schedule = .word w :: rest →
    (decode w = .error .reservedOp → step s = .refused (.reservedOp w)) ∧
    (decode w = .error .reservedBits → step s = .refused (.reservedBits w)) ∧
    (∀ k, decode w = .error (.offsetOutOfFrame k) → step s = .refused (.offsetOutOfFrame w k)) ∧
    refusalCode (.reservedOp w) = some 1 ∧ refusalCode (.reservedBits w) = some 2 ∧
    (∀ k, refusalCode (.offsetOutOfFrame w k) = some 3)

/-- R101: when the next event is a host read of a port, the step is that read. The schedule is the model's own
field (log entry 1). -/
def Obligations.StepPerformsThePortRead : Prop :=
  ∀ (s : State) (p : Port) (rest : List Event),
    s.faulted = none → s.schedule = .read p :: rest →
    step s = readPort p { s with schedule := rest }

/-- R38, R102: a schedule of operation words performs those operations in their order, up to the first that
does not take its step. The schedule is the model's own field (log entry 1). -/
def Obligations.ScheduleRunsItsOperationsInOrder : Prop :=
  ∀ (is : List Instr) (rest : List Event) (s : State),
    (∀ i ∈ is, i.wf = true) → s.faulted = none →
    s.schedule = (is.map fun i => Event.word (encode i)) ++ rest →
    Sys2Proof.core.run is.length s = runInstrs is { s with schedule := rest }

/-- R86: raising a fault sets the mark; a faulted state has no further steps and is no good final state; no
operation clears the mark, RST included. That a faulted state stops before a unit call and a port read as well,
which R52 and R101 count as no agent's steps, is the model's reading (log entry 8, DEDUCED). -/
def Obligations.FaultedStateHasNoFurtherSteps : Prop :=
  ∀ (f : Fault) (s : State),
    (raiseFault f s).faulted = some f ∧
    step (raiseFault f s) = .fault f ∧
    (raiseFault f s).clean = false ∧
    (∀ n, afterEvents n (raiseFault f s) = raiseFault f s) ∧
    (∀ i t, exec i (raiseFault f s) = .next t → t.faulted = some f)

/-- R21: both marks are clear at the start of a run, and once set neither is cleared by any event. -/
def Obligations.MarksOnceSetAreNeverCleared : Prop :=
  State.reset.faulted = none ∧ State.reset.refused = none ∧
  ∀ (n : Nat) (s : State),
    (s.faulted ≠ none → (afterEvents n s).faulted ≠ none) ∧
    (s.refused ≠ none → (afterEvents n s).refused ≠ none)

/-- R87: a refused event takes no step: it sets the mark and changes nothing else of the block. -/
def Obligations.RefusedWordSetsOnlyItsMark : Prop :=
  ∀ (s : State) (w : Word) (rest : List Event) (r : Refusal),
    s.faulted = none → s.schedule = .word w :: rest → step s = .refused r →
    afterEvent s = { s with schedule := rest, refused := some r }

/-- R88: a SAMPLE in SAMPLED and a COMMIT in READY are refused as `PhaseOrder`, with the word and the phase
recorded (code 5). -/
def Obligations.OutOfPhaseOperationsAreRefused : Prop :=
  (∀ s : State, s.phase = .sampled →
    exec .sample s = .refused (.phaseOrder 0x20000000 .sampled)) ∧
  (∀ s : State, s.phase = .ready →
    exec .commit s = .refused (.phaseOrder 0x30000000 .ready)) ∧
  (∀ w ph, refusalCode (.phaseOrder w ph) = some 5)

/-- R89: before the first COMMIT after RST, and from the start of a run, reading `obs_eff` or any `led_out[i]`
raises `Fault(UnwrittenOutput)`, recorded with the port. -/
def Obligations.UnwrittenOutputReadsFault : Prop :=
  ∀ (is : List Instr) (s u : State) (p : Port),
    .commit ∉ is →
    (runInstrs (.rst :: is) s = .next u ∨ runInstrs is State.reset = .next u) →
    (p = .obsEff ∨ ∃ i, p = .ledOut i) →
    readPort p u = .fault (.unwrittenOutput p)

/-- R26, R35, R101: every output port reads its register, `obs_eff` and `led_out[i]` from a COMMIT on until the
next RST, and a read changes nothing of the block. The list the value goes to is the model's own field (log
entry 4), and so is the mark `outputsWritten` that tells whether a COMMIT has come (log entry 3). -/
def Obligations.PortsReadTheirRegisters : Prop :=
  (∀ s : State,
    (readPort .obsTicks s =
      .next { s with returned := .port .obsTicks (.byte s.tickCount) :: s.returned }) ∧
    (s.strobeState = .off → readPort .obsState s =
      .next { s with returned := .port .obsState (.bit 0) :: s.returned }) ∧
    (s.strobeState = .on → readPort .obsState s =
      .next { s with returned := .port .obsState (.bit 1) :: s.returned }) ∧
    (readPort .obsWas s =
      .next { s with returned := .port .obsWas (.bit (if s.wasActive then 1 else 0)) :: s.returned }) ∧
    (s.phase = .ready → readPort .obsPhase s =
      .next { s with returned := .port .obsPhase (.bit 0) :: s.returned }) ∧
    (s.phase = .sampled → readPort .obsPhase s =
      .next { s with returned := .port .obsPhase (.bit 1) :: s.returned }) ∧
    (s.outputsWritten = true →
      readPort .obsEff s = .next { s with returned := .port .obsEff (.byte s.effOut) :: s.returned } ∧
      ∀ i : Fin 8, readPort (.ledOut i) s =
        .next { s with returned := .port (.ledOut i) (.byte s.ledOut[i]) :: s.returned })) ∧
  (∀ (is : List Instr) (s t u : State), .rst ∉ is → exec .commit s = .next t → runInstrs is t = .next u →
    readPort .obsEff u = .next { u with returned := .port .obsEff (.byte u.effOut) :: u.returned } ∧
    ∀ i : Fin 8, readPort (.ledOut i) u =
      .next { u with returned := .port (.ledOut i) (.byte u.ledOut[i]) :: u.returned })

/-! ## Reset (spec/70_reset_and_hazards.md) -/

/-- R103: RST, in either phase, puts the registers in their reset values, leaves the outputs unwritten (reading
one faults) and drops a pending snapshot (the next LOOP step is SAMPLE), and leaves the frame and the marks as
they are. That the schedule and the returned values stay is the model's choice (log entries 1 and 4). -/
def Obligations.RstPutsTheResetState : Prop :=
  decode 0x00000000 = .ok .rst ∧
  ∀ s : State, ∃ t, exec .rst s = .next t ∧
    t.tickCount = 0 ∧ t.strobeState = .off ∧ t.wasActive = false ∧ t.phase = .ready ∧
    readPort .obsEff t = .fault (.unwrittenOutput .obsEff) ∧
    (∀ i, readPort (.ledOut i) t = .fault (.unwrittenOutput (.ledOut i))) ∧
    exec .commit t = .refused (.phaseOrder 0x30000000 .ready) ∧ takesStep (exec .sample t) ∧
    (∀ k, Memory.read t.inFrame k = Memory.read s.inFrame k) ∧
    t.faulted = s.faulted ∧ t.refused = s.refused ∧
    t.schedule = s.schedule ∧ t.returned = s.returned

/-- R27: the state at the start of a run. -/
def Obligations.ResetStateValues : Prop :=
  State.reset.tickCount = 0 ∧ State.reset.strobeState = .off ∧ State.reset.wasActive = false ∧
  State.reset.phase = .ready ∧ State.reset.faulted = none ∧ State.reset.refused = none ∧
  readPort .obsEff State.reset = .fault (.unwrittenOutput .obsEff) ∧
  (∀ i, readPort (.ledOut i) State.reset = .fault (.unwrittenOutput (.ledOut i)))

/-- R106: the first iteration after RST is lit at the full master brightness, whatever comes between RST and
its COMMIT, and it clears the counter if the strobe is active. -/
def Obligations.FirstIterationAfterRstIsLit : Prop :=
  ∀ (is : List Instr) (s u : State),
    .commit ∉ is → runInstrs (.rst :: is) s = .next u → u.phase = .sampled →
    ∃ t, exec .commit u = .next t ∧ t.effOut = u.snapMaster ∧
      (∀ i : Fin 8, t.ledOut[i] = BitVec.ofNat 8 (u.snapLed[i].toNat * u.snapMaster.toNat / 255)) ∧
      (u.snapSpeed ≠ 0 → t.strobeState = .on ∧ t.tickCount = 0)

/-- R75, R105: the reset values of `tick_count` and `strobe_state` reach no output. Two states that differ only
in the counter, its latched copy and the state, and agree in these once `was_active` is set, perform the same
operations and keep showing the same outputs. That the fields to which the spec gives no value stay equal as well
(the snapshot in READY, the outputs after RST) is the model's choice (log entries 9 and 3, unsafe). -/
def Obligations.ResetTickAndStateReachNoOutput : Prop :=
  ∀ (is : List Instr) (s t s' : State), SameOutputs s t → runInstrs is s = .next s' →
    ∃ t', runInstrs is t = .next t' ∧ SameOutputs s' t' ∧
      observe s' .obsEff = observe t' .obsEff ∧ ∀ i, observe s' (.ledOut i) = observe t' (.ledOut i)

/-! ## The tick counter (spec/40_tick_counter.md) -/

/-- R55: TICK, in every state, adds one to the counter modulo 256 and changes nothing else. -/
def Obligations.TickAddsOneModulo256 : Prop :=
  decode 0x10000000 = .ok .tick ∧
  ∀ s : State, exec .tick s =
    .next { s with tickCount := BitVec.ofNat 8 ((s.tickCount.toNat + 1) % 256) }

/-- R58: only TICK adds to the counter, only COMMIT clears it, RST sets its reset value, and no other operation
writes it. -/
def Obligations.OnlyTickCommitAndRstWriteTheCounter : Prop :=
  ∀ (i : Instr) (s t : State), exec i s = .next t → t.tickCount ≠ s.tickCount →
    (i = .tick ∧ t.tickCount = s.tickCount + 1) ∨ (i = .commit ∧ t.tickCount = 0) ∨
    (i = .rst ∧ t.tickCount = 0)

/-- R41, R55: whatever TICKs fall between a SAMPLE and its COMMIT are lost when the COMMIT clears the counter and
kept when it does not. -/
def Obligations.TicksInsideAnIterationAreLostOrKept : Prop :=
  ∀ (s : State) (n : Nat), s.phase = .ready →
    let r := transition s.strobeState s.wasActive s.tickCount (Memory.read s.inFrame 0)
      (Memory.read s.inFrame 1)
    ∃ u t, runInstrs (.sample :: List.replicate n .tick) s = .next u ∧
      u.snapTicks = s.tickCount ∧ u.tickCount = s.tickCount + BitVec.ofNat 8 n ∧
      exec .commit u = .next t ∧
      t.tickCount = if r.rr then 0 else s.tickCount + BitVec.ofNat 8 n

/-- R94: every order of simultaneous events is admitted: TICK and a clearing COMMIT, TICK and SAMPLE, a host
write and SAMPLE. -/
def Obligations.SimultaneousEventsMayComeInEitherOrder : Prop :=
  (∀ s : State, s.phase = .sampled →
    (transition s.strobeState s.wasActive s.snapTicks s.snapMaster s.snapSpeed).rr = true →
    (∃ t, runInstrs [.tick, .commit] s = .next t ∧ t.tickCount = 0) ∧
    (∃ t, runInstrs [.commit, .tick] s = .next t ∧ t.tickCount = 1)) ∧
  (∀ s : State, s.phase = .ready →
    (∃ t, runInstrs [.tick, .sample] s = .next t ∧ t.snapTicks = s.tickCount + 1) ∧
    (∃ t, runInstrs [.sample, .tick] s = .next t ∧ t.snapTicks = s.tickCount)) ∧
  (∀ (s : State) (v : Byte), s.phase = .ready → Memory.wf s.inFrame = true →
    (∃ t, runInstrs [.hostWr 0 v, .sample] s = .next t ∧ t.snapMaster = v) ∧
    (∃ t, runInstrs [.sample, .hostWr 0 v] s = .next t ∧ t.snapMaster = Memory.read s.inFrame 0))

/-! ## The strobe rate mapper (spec/41_strobe_rate_mapper.md) -/

/-- R61: `F_OFFMAP p` returns the formula's value, in every state, and changes no state of the block. That the
result goes to the list of returned values is the model's choice (log entry 4). -/
def Obligations.OffMapCallReturnsTheFormula : Prop :=
  ∀ (p : Byte) (s : State), exec (.fOffmap p) s =
    .next { s with
      returned := .offTicks (BitVec.ofNat 8 ((51000 - p.toNat * 190) / 255)) :: s.returned }

/-- R62: the ends of the mapper's range. -/
def Obligations.OffMapRange : Prop :=
  offMap 0 = 200 ∧ offMap 1 = 199 ∧ offMap 255 = 10 ∧
  ∀ p : Byte, p ≠ 0 → 10 ≤ (offMap p).toNat ∧ (offMap p).toNat ≤ 199

/-- R63: the map never increases, and falls by at most one tick per unit of speed, between neighbours and so
between any two speeds. -/
def Obligations.OffMapFallsByAtMostOne : Prop :=
  (∀ p : Byte, p.toNat < 255 →
    (offMap (p + 1)).toNat ≤ (offMap p).toNat ∧ (offMap p).toNat ≤ (offMap (p + 1)).toNat + 1) ∧
  (∀ p q : Byte, p.toNat ≤ q.toNat →
    (offMap q).toNat ≤ (offMap p).toNat ∧
    (offMap p).toNat ≤ (offMap q).toNat + (q.toNat - p.toNat))

/-- R65: no intermediate of the mapper wraps or goes negative in 16 bits, and unbounded integers give the same
value. -/
def Obligations.OffMapFitsSixteenBits : Prop :=
  51000 = 200 * 255 ∧ 190 = 200 - 10 ∧
  ∀ p : Byte,
    p.toNat * 190 ≤ 48450 ∧ 2550 ≤ 51000 - p.toNat * 190 ∧ 51000 - p.toNat * 190 ≤ 51000 ∧
    p.toNat * 190 < 2 ^ 16 ∧ 51000 - p.toNat * 190 < 2 ^ 16 ∧ p.toNat * 190 ≤ 51000 ∧
    (offMap p).toNat = (51000 - p.toNat * 190) / 255

/-! ## The strobe state machine (spec/42_strobe_state_machine.md) -/

/-- R66: in READY, SAMPLE latches the ten frame bytes and the counter and changes nothing else; in SAMPLED it is
refused. -/
def Obligations.SampleLatchesFrameAndCounter : Prop :=
  decode 0x20000000 = .ok .sample ∧
  (∀ s : State, s.phase = .ready → exec .sample s =
    .next { s with
      snapMaster := Memory.read s.inFrame 0
      snapSpeed := Memory.read s.inFrame 1
      snapLed := Vector.ofFn fun i => Memory.read s.inFrame (2 + i.val)
      snapTicks := s.tickCount
      phase := .sampled }) ∧
  (∀ s : State, s.phase = .sampled → exec .sample s = .refused (.phaseOrder 0x20000000 .sampled))

/-- R67: `F_NEXT s, a, t, m, p` returns the triple of the rule, in every state, and changes no state of the
block. That the result goes to the list of returned values is the model's choice (log entry 4). -/
def Obligations.NextCallReturnsTheTransition : Prop :=
  ∀ (s : StrobeState) (a : Bool) (t m p : Byte) (st : State), exec (.fNext s a t m p) st =
    .next { st with
      returned := .transition
        (if p.toNat = 0 then ⟨.on, m, false⟩
         else if a = false then ⟨.on, m, true⟩
         else if s = .on then (if 4 ≤ t.toNat then ⟨.off, 0, true⟩ else ⟨.on, m, false⟩)
         else if (51000 - p.toNat * 190) / 255 < t.toNat then ⟨.on, m, true⟩
         else ⟨.off, 0, false⟩) :: st.returned }

/-- R74: exactly one row of the table matches each input, `F_NEXT` gives that row's result, and `was_active`
after COMMIT is that row's. -/
def Obligations.TransitionIsTheDecisionTable : Prop :=
  (∀ (s : StrobeState) (a : Bool) (t m p : Byte),
    (∃! k, (tableRow k).applies s a t p) ∧
    ∀ k, (tableRow k).applies s a t p → transition s a t m p = (tableRow k).gives m) ∧
  (∀ (s t : State) (k : Fin 6), exec .commit s = .next t →
    (tableRow k).applies s.strobeState s.wasActive s.snapTicks s.snapSpeed →
    t.wasActive = (tableRow k).wasAfter)

/-- R73: the effective brightness is 0 when the new state is OFF and the master brightness when it is ON. -/
def Obligations.EffIsMasterOrZero : Prop :=
  ∀ (s : StrobeState) (a : Bool) (t m p : Byte),
    ((transition s a t m p).eff = m ∨ (transition s a t m p).eff = 0) ∧
    ((transition s a t m p).ns = .off → (transition s a t m p).eff = 0) ∧
    ((transition s a t m p).ns = .on → (transition s a t m p).eff = m)

/-- R76, R81: in SAMPLED, COMMIT writes the transition's state and brightness, the activation flag, every scaled
lane, and 0 to the counter if asked, and changes nothing else; in READY it is refused. That the snapshot
registers keep their bits into READY, where R19 gives them no value, is the model's choice (log entry 9, DEDUCED,
unsafe). -/
def Obligations.CommitWritesTheIteration : Prop :=
  decode 0x30000000 = .ok .commit ∧
  (∀ s : State, s.phase = .sampled →
    let r := transition s.strobeState s.wasActive s.snapTicks s.snapMaster s.snapSpeed
    (r.eff = s.snapMaster ∨ r.eff = 0) ∧
    exec .commit s =
      .next { s with
        strobeState := r.ns
        wasActive := decide (s.snapSpeed ≠ 0)
        effOut := r.eff
        ledOut := Vector.ofFn fun i => BitVec.ofNat 8 (s.snapLed[i].toNat * r.eff.toNat / 255)
        outputsWritten := true
        tickCount := if r.rr then 0 else s.tickCount
        phase := .ready }) ∧
  (∀ s : State, s.phase = .ready → exec .commit s = .refused (.phaseOrder 0x30000000 .ready))

/-- R77: until the next COMMIT or RST, `was_active` says whether the last COMMIT's speed was nonzero, and after
RST it says it was zero. -/
def Obligations.WasActiveRemembersTheLastCommit : Prop :=
  ∀ (is : List Instr) (s t u : State), .commit ∉ is → .rst ∉ is →
    (exec .commit s = .next t → runInstrs is t = .next u → u.wasActive = decide (s.snapSpeed ≠ 0)) ∧
    (exec .rst s = .next t → runInstrs is t = .next u → u.wasActive = false)

/-- R78: with the strobe active and ON, any number of COMMITs whose latched ticks are below 4 keep it ON, each
with its own master brightness and no tick reset. -/
def Obligations.LitPhaseIsIdempotent : Prop :=
  ∀ (is : List Instr) (s : State), s.strobeState = .on → s.wasActive = true → .rst ∉ is →
    commitsFind (fun u => u.snapSpeed ≠ 0 ∧ u.snapTicks.toNat < 4) is s →
    commitsFind (fun u => u.phase = .sampled → ∃ v, exec .commit u = .next v ∧ v.strobeState = .on ∧
      v.effOut = u.snapMaster ∧ v.tickCount = u.tickCount) is s

/-- R79: where LOOP iterates at least once after every TICK and no TICK falls inside an iteration, a flash begun
by a clear is lit for 4 TICKs and dark for `off + 1`, so a cycle is `off + 5` TICKs. -/
def Obligations.FlashIsFourTicksLitAndOffPlusOneDark : Prop :=
  ∀ (s : State) (ks : List Nat),
    s.phase = .ready → s.wasActive = true → s.strobeState = .on → s.tickCount = 0 →
    Memory.read s.inFrame 1 ≠ 0 →
    let off := (51000 - (Memory.read s.inFrame 1).toNat * 190) / 255
    ∃ t, runInstrs (tickRounds ks) s = .next t ∧ t.phase = .ready ∧
      (ks.length < 4 → t.strobeState = .on ∧ t.tickCount.toNat = ks.length ∧
        (0 < ks.length → t.effOut = Memory.read s.inFrame 0)) ∧
      (4 ≤ ks.length → ks.length < off + 5 →
        t.strobeState = .off ∧ t.tickCount.toNat = ks.length - 4 ∧ t.effOut = 0) ∧
      (ks.length = off + 5 →
        t.strobeState = .on ∧ t.tickCount = 0 ∧ t.effOut = Memory.read s.inFrame 0)

/-- R60, R98, R110: in a fair run that samples every tick, with no RST and a nonzero speed throughout, no phase
of the strobe lasts for ever. -/
def Obligations.EveryPhaseOfTheStrobeEnds : Prop :=
  ∀ r : Run, r.tickFair → r.loopFair → r.noReset → r.samplesEveryTick →
    (∀ n, Memory.read (r.state n).inFrame 1 ≠ 0) →
    ∀ n, ∃ m, n ≤ m ∧ (r.state m).strobeState ≠ (r.state n).strobeState

/-- R98, R18: in a run without RST in which LOOP takes infinitely many steps, it iterates for ever. -/
def Obligations.FairLoopIteratesForEver : Prop :=
  ∀ r : Run, r.loopFair → r.noReset →
    (∀ n, ∃ m, n ≤ m ∧ r.instr m = .sample) ∧ (∀ n, ∃ m, n ≤ m ∧ r.instr m = .commit)

/-! ## The scaler (spec/43_brightness_scaler.md) -/

/-- R80, R84: `F_SCALE r, b` returns the truncated quotient of the full product, in every state, and changes no
state of the block. That the result goes to the list of returned values is the model's choice (log entry 4). -/
def Obligations.ScaleCallReturnsTheTruncatedQuotient : Prop :=
  ∀ (r b : Byte) (s : State),
    r.toNat * b.toNat ≤ 65025 ∧
    exec (.fScale r b) s =
      .next { s with returned := .scaled (BitVec.ofNat 8 (r.toNat * b.toNat / 255)) :: s.returned }

/-- R83: the scaler's bounds, its monotonicity in both operands, and its ends. -/
def Obligations.ScaleIsBoundedAndMonotone : Prop :=
  (∀ r b : Byte, scale r b ≤ r ∧ scale r b ≤ b) ∧
  (∀ r r' b : Byte, r ≤ r' → scale r b ≤ scale r' b) ∧
  (∀ r b b' : Byte, b ≤ b' → scale r b ≤ scale r b') ∧
  (∀ r : Byte, scale r 255 = r ∧ scale r 0 = 0)

/-- R82: a lane's output depends only on its own snapshot byte and the shared effective brightness. -/
def Obligations.LanesAreIndependent : Prop :=
  ∀ (s s' t t' : State) (i : Fin 8), exec .commit s = .next t → exec .commit s' = .next t' →
    s.snapLed[i] = s'.snapLed[i] → t.effOut = t'.effOut → t.ledOut[i] = t'.ledOut[i]

/-! ## The host and the whole machine -/

/-- R36, R50: HOST_WR, in every state, writes its byte at its offset and no other byte and no register; past the
frame it is refused. The frame is taken in canonical form, which `StepKeepsTheInvariant` keeps. -/
def Obligations.HostWriteStoresOneByte : Prop :=
  (∀ (k : BitVec 10) (v : Byte) (s : State), k.toNat ≤ 9 → Memory.wf s.inFrame = true →
    ∃ t, exec (.hostWr k v) s = .next t ∧ t = { s with inFrame := t.inFrame } ∧
      Memory.read t.inFrame k.toNat = v ∧
      (∀ j, j ≠ k.toNat → Memory.read t.inFrame j = Memory.read s.inFrame j)) ∧
  (∀ (k : BitVec 10) (v : Byte) (s : State), 9 < k.toNat →
    exec (.hostWr k v) s = .refused (.offsetOutOfFrame (encode (.hostWr k v)) k))

/-- R28, R39: no operation but HOST_WR writes a byte of the input frame. -/
def Obligations.OnlyTheHostWritesTheFrame : Prop :=
  ∀ (i : Instr) (s t : State), exec i s = .next t → performer i ≠ .host →
    ∀ j, Memory.read t.inFrame j = Memory.read s.inFrame j

/-- R14 to R19: the flags and outputs change only in COMMIT and RST, and the snapshot only in SAMPLE and RST. That
COMMIT leaves the snapshot, to which R19 gives no value from then on, is the model's choice (log entry 9, DEDUCED,
unsafe). -/
def Obligations.RegistersHaveTheirOneWriter : Prop :=
  ∀ (i : Instr) (s t : State), exec i s = .next t → i ≠ .rst →
    (i ≠ .commit → t.strobeState = s.strobeState ∧ t.wasActive = s.wasActive ∧ t.effOut = s.effOut ∧
      t.ledOut = s.ledOut ∧ t.outputsWritten = s.outputsWritten) ∧
    (i ≠ .sample → t.snapMaster = s.snapMaster ∧ t.snapSpeed = s.snapSpeed ∧
      t.snapTicks = s.snapTicks ∧ t.snapLed = s.snapLed) ∧
    (i ≠ .sample → i ≠ .commit → t.phase = s.phase)

/-- R18: SAMPLE is enabled only in READY and sets SAMPLED, COMMIT is enabled only in SAMPLED and sets READY, and
the reset value is READY. -/
def Obligations.SampleAndCommitAlternate : Prop :=
  State.reset.phase = .ready ∧
  ∀ s : State,
    (takesStep (exec .sample s) ↔ s.phase = .ready) ∧
    (∀ t, exec .sample s = .next t → t.phase = .sampled) ∧
    (takesStep (exec .commit s) ↔ s.phase = .sampled) ∧
    (∀ t, exec .commit s = .next t → t.phase = .ready)

/-- R52: a unit call changes no state of the block; only the caller gets its result. That the result goes to the
list of returned values is the model's choice (log entry 4). -/
def Obligations.UnitCallsChangeNoBlockState : Prop :=
  ∀ (i : Instr) (s : State), performer i = .unitTest →
    ∃ t r, exec i s = .next t ∧ SameBlock s t ∧ t.schedule = s.schedule ∧ t.returned = r :: s.returned

/-- R18, R36, R95: an operation takes its step exactly when it is enabled, and in every state TICK and one of
SAMPLE and COMMIT are enabled, so nothing gets stuck. -/
def Obligations.OperationCompletesExactlyWhenEnabled : Prop :=
  (∀ (i : Instr) (s : State), takesStep (exec i s) ↔ enabled i s = true) ∧
  (∀ s : State, takesStep (exec .tick s) ∧ (takesStep (exec .sample s) ∨ takesStep (exec .commit s)))

/-- R90: the numbered cause codes. -/
def Obligations.CauseCodesAreNumbered : Prop :=
  (∀ w, refusalCode (.reservedOp w) = some 1) ∧ (∀ w, refusalCode (.reservedBits w) = some 2) ∧
  (∀ w k, refusalCode (.offsetOutOfFrame w k) = some 3) ∧ (∀ l, refusalCode (.operandWidth l) = some 4) ∧
  (∀ w ph, refusalCode (.phaseOrder w ph) = some 5) ∧ (∀ p, faultCode (.unwrittenOutput p) = 16)

/-- Every step keeps the invariant: the frame stays canonical and inside its offsets (R28), the flags and the
brightness agree (R27, R68, R73), and no lane exceeds the brightness (R83). -/
def Obligations.StepKeepsTheInvariant : Prop :=
  ∀ s t : State, BlockInv s → step s = .next t → BlockInv t

/-- The reset state meets the invariant. -/
def Obligations.ResetMeetsTheInvariant : Prop := BlockInv State.reset
end

