-- ==== Sys2Proof/Laws/Assembler.lean ====
section
/-! SUPPORT. What the assembler makes of one operand. -/

namespace Sys2Proof.Machine

/-- An operand that fits its field is taken as is (R53). -/
theorem fieldOf_fits (w n : Nat) (h : n < 2 ^ w) : fieldOf w (.num n) = .ok (BitVec.ofNat w n) := by
  simp [fieldOf, h]

/-- An operand that does not fit its field is refused (R53). -/
theorem fieldOf_too_wide (w n : Nat) (h : ¬ n < 2 ^ w) : fieldOf w (.num n) = .error .operandWidth := by
  simp [fieldOf, h]

/-- A value written as a number reads back as the value. -/
@[simp] theorem fieldOf_toNat (w : Nat) (v : BitVec w) : fieldOf w (.num v.toNat) = .ok v := by
  simp [fieldOf, v.isLt]

/-- The LED number of `SETL` (R54). -/
theorem ledOf_num (i : Fin Config.nLed) : ledOf (.num i.val) = .ok i := by
  simp [ledOf, i.isLt]

end Sys2Proof.Machine
end

