-- ==== Sys2Proof/Laws/Decode.lean ====
section
/-! SUPPORT. What the bit fields of a word are as numbers, and what each field of a built word reads as. -/

namespace Sys2Proof

theorem bitsAt_toNat (w : Word) (lo len : Nat) : (bitsAt w lo len).toNat = w.toNat / 2 ^ lo % 2 ^ len := by
  simp [bitsAt, Nat.shiftRight_eq_div_pow]

theorem wordOf_toNat (op : OpCode) (n : Nat) (h : n < 0x10000000) :
    (wordOf op n).toNat = op.bits.toNat * 0x10000000 + n := by
  have := op.bits.isLt
  rw [wordOf, BitVec.toNat_ofNat, Nat.mod_eq_of_lt (by omega)]

/-- R44: the code of a built word. -/
theorem opField_wordOf (op : OpCode) (n : Nat) (h : n < 0x10000000) : opField (wordOf op n) = op.bits := by
  apply BitVec.eq_of_toNat_eq
  rw [opField, bitsAt_toNat, wordOf_toNat op n h]
  have := op.bits.isLt
  omega

/-- Below bit 28 a built word reads as its fields. -/
theorem bitsAt_wordOf (op : OpCode) (n lo len : Nat) (h : n < 0x10000000) (hl : lo + len ≤ 28) :
    (bitsAt (wordOf op n) lo len).toNat = n / 2 ^ lo % 2 ^ len := by
  have hlo : 0x10000000 = 2 ^ lo * 2 ^ (28 - lo) := by rw [← Nat.pow_add, Nat.add_sub_cancel' (by omega)]
  have hlen : 2 ^ (28 - lo) = 2 ^ len * 2 ^ (28 - lo - len) := by
    rw [← Nat.pow_add, Nat.add_sub_cancel' (by omega)]
  rw [bitsAt_toNat, wordOf_toNat op n h, hlo, Nat.mul_left_comm, Nat.add_comm,
    Nat.add_mul_div_left _ _ (Nat.two_pow_pos lo), hlen, Nat.mul_left_comm, Nat.add_mul_mod_self_left]

/-- A field that reads as `v` in numbers is `v`. -/
theorem bitsAt_wordOf_eq (op : OpCode) (n lo : Nat) {len : Nat} (v : BitVec len) (h : n < 0x10000000)
    (hl : lo + len ≤ 28) (hv : n / 2 ^ lo % 2 ^ len = v.toNat) : bitsAt (wordOf op n) lo len = v :=
  BitVec.eq_of_toNat_eq (by rw [bitsAt_wordOf op n lo len h hl, hv])

/-! ## The operation code -/

/-- R45: the codes and the operations they name agree. -/
theorem opOf_bits (op : OpCode) : opOf op.bits = some op := by cases op <;> rfl

theorem opOf_eq_some (c : BitVec 4) (op : OpCode) (h : opOf c = some op) : c = op.bits := by
  revert op c
  decide

/-- R49: the eight reserved codes. -/
theorem opOf_eq_none_iff (c : BitVec 4) :
    opOf c = none ↔ c.toNat ∈ [5, 6, 7, 11, 12, 13, 14, 15] := by
  revert c
  decide

/-! ## The decoder -/

/-- What the decoder answers where the code names an operation. -/
theorem decode_of_op (w : Word) (op : OpCode) (h : opField w = op.bits) :
    decode w = if op.reservedZero w then decodeFields op w else .error .reservedBits := by
  rw [decode, h, opOf_bits]

/-- An accepted word has a defined code, zero reserved bits, and the fields of the answer. -/
theorem decode_ok_inv (w : Word) (i : Instr) (h : decode w = .ok i) :
    ∃ op, opField w = op.bits ∧ op.reservedZero w = true ∧ decodeFields op w = .ok i := by
  cases hop : opOf (opField w) with
  | none => simp [decode, hop] at h
  | some op =>
    have hb := opOf_eq_some _ _ hop
    rw [decode_of_op w op hb] at h
    by_cases hr : op.reservedZero w = true
    · exact ⟨op, hb, hr, by rwa [if_pos hr] at h⟩
    · rw [if_neg hr] at h
      cases h

/-- What the fields decode to is an operation of the code that was read. -/
theorem decodeFields_opCode (op : OpCode) (w : Word) (i : Instr) (h : decodeFields op w = .ok i) :
    i.opCode = op := by
  cases op <;> simp only [decodeFields] at h <;> try (cases h; rfl)
  split at h
  · cases h; rfl
  · cases h

end Sys2Proof
end

