-- ==== Sys2Proof/Laws/Memory.lean ====
section
/-! SUPPORT. The laws of the input frame as memory: a read after a write, the canonical form kept by every
write, the frame's bound, and that equal canonical frames are equal data. -/

namespace Sys2Proof.Machine

@[simp] theorem Memory.read_nil (k : Nat) : Memory.read [] k = frameDefault := rfl

theorem Memory.read_cell (a : Nat) (b : Byte) (m : Memory) (k : Nat) :
    Memory.read ((a, b) :: m) k = if a = k then b else Memory.read m k := rfl

theorem Memory.read_of_below (lo : Nat) (m : Memory) (h : Memory.wfFrom lo m = true) (k : Nat) (hk : k < lo) :
    Memory.read m k = frameDefault := by
  induction m generalizing lo with
  | nil => rfl
  | cons c m ih =>
    obtain ⟨a, b⟩ := c
    simp only [Memory.wfFrom, Bool.and_eq_true, decide_eq_true_eq] at h
    rw [Memory.read_cell, if_neg (by omega)]
    exact ih (a + 1) h.2 (by omega)

theorem Memory.wfFrom_mono (lo lo' : Nat) (m : Memory) (hle : lo' ≤ lo) (h : Memory.wfFrom lo m = true) :
    Memory.wfFrom lo' m = true := by
  cases m with
  | nil => rfl
  | cons c m =>
    simp only [Memory.wfFrom, Bool.and_eq_true, decide_eq_true_eq] at h ⊢
    exact ⟨⟨by omega, h.1.2⟩, h.2⟩

theorem Memory.wfFrom_cons (lo k : Nat) (v : Byte) (m : Memory) (hk : lo ≤ k)
    (h : Memory.wfFrom (k + 1) m = true) : Memory.wfFrom lo (Memory.cons k v m) = true := by
  unfold Memory.cons
  split
  · exact Memory.wfFrom_mono _ _ _ (by omega) h
  · simp_all [Memory.wfFrom]

theorem Memory.read_cons (k : Nat) (v : Byte) (m : Memory) (h : Memory.wfFrom (k + 1) m = true) (j : Nat) :
    Memory.read (Memory.cons k v m) j = if k = j then v else Memory.read m j := by
  unfold Memory.cons
  by_cases hv : v = frameDefault
  · rw [if_pos hv]
    split
    · subst_vars
      exact Memory.read_of_below _ _ h _ (by omega)
    · rfl
  · rw [if_neg hv, Memory.read_cell]

theorem Memory.wfFrom_write (lo : Nat) (m : Memory) (k : Nat) (v : Byte) (h : Memory.wfFrom lo m = true)
    (hk : lo ≤ k) : Memory.wfFrom lo (Memory.write m k v) = true := by
  induction m generalizing lo with
  | nil => exact Memory.wfFrom_cons lo k v [] hk rfl
  | cons c m ih =>
    obtain ⟨a, b⟩ := c
    simp only [Memory.wfFrom, Bool.and_eq_true, decide_eq_true_eq] at h
    unfold Memory.write
    split
    · refine Memory.wfFrom_cons lo k v _ hk ?_
      simp only [Memory.wfFrom, Bool.and_eq_true, decide_eq_true_eq]
      exact ⟨⟨by omega, h.1.2⟩, h.2⟩
    · split
      · subst_vars
        exact Memory.wfFrom_cons lo _ v m hk h.2
      · simp only [Memory.wfFrom, Bool.and_eq_true, decide_eq_true_eq]
        exact ⟨h.1, ih (a + 1) h.2 (by omega)⟩

/-- A write keeps the canonical form. -/
theorem Memory.wf_write (m : Memory) (k : Nat) (v : Byte) (h : Memory.wf m = true) :
    Memory.wf (Memory.write m k v) = true :=
  Memory.wfFrom_write 0 m k v h (Nat.zero_le k)

theorem Memory.read_writeFrom (lo : Nat) (m : Memory) (k : Nat) (v : Byte) (h : Memory.wfFrom lo m = true)
    (j : Nat) : Memory.read (Memory.write m k v) j = if k = j then v else Memory.read m j := by
  induction m generalizing lo with
  | nil => exact Memory.read_cons k v [] rfl j
  | cons c m ih =>
    obtain ⟨a, b⟩ := c
    simp only [Memory.wfFrom, Bool.and_eq_true, decide_eq_true_eq] at h
    unfold Memory.write
    split
    · refine Memory.read_cons k v _ ?_ j
      simp only [Memory.wfFrom, Bool.and_eq_true, decide_eq_true_eq]
      exact ⟨⟨by omega, h.1.2⟩, h.2⟩
    · split
      · subst_vars
        rw [Memory.read_cons _ _ _ h.2, Memory.read_cell]
        split <;> rfl
      · rw [Memory.read_cell, Memory.read_cell, ih (a + 1) h.2]
        split
        · rw [if_neg (by omega)]
        · rfl

/-- R38: a read after a write gives the byte written, and every other offset reads as before. -/
theorem Memory.read_write (m : Memory) (k : Nat) (v : Byte) (h : Memory.wf m = true) (j : Nat) :
    Memory.read (Memory.write m k v) j = if k = j then v else Memory.read m j :=
  Memory.read_writeFrom 0 m k v h j

theorem Memory.inFrameSpace_cons (k : Nat) (v : Byte) (m : Memory) (hk : k < Config.frameSize)
    (h : Memory.inFrameSpace m = true) : Memory.inFrameSpace (Memory.cons k v m) = true := by
  unfold Memory.cons
  split
  · exact h
  · simp only [Memory.inFrameSpace, List.all_cons, Bool.and_eq_true, decide_eq_true_eq]
    exact ⟨hk, h⟩

/-- A write inside the frame keeps every listed offset inside it. -/
theorem Memory.inFrameSpace_write (m : Memory) (k : Nat) (v : Byte) (hk : k < Config.frameSize)
    (h : Memory.inFrameSpace m = true) : Memory.inFrameSpace (Memory.write m k v) = true := by
  induction m with
  | nil => exact Memory.inFrameSpace_cons k v [] hk rfl
  | cons c m ih =>
    obtain ⟨a, b⟩ := c
    have htail : Memory.inFrameSpace m = true := by
      simp only [Memory.inFrameSpace, List.all_cons, Bool.and_eq_true] at h
      exact h.2
    unfold Memory.write
    split
    · exact Memory.inFrameSpace_cons k v _ hk h
    · split
      · exact Memory.inFrameSpace_cons k v m hk htail
      · simp only [Memory.inFrameSpace, List.all_cons, Bool.and_eq_true] at h ⊢
        exact ⟨h.1, ih htail⟩

theorem Memory.extFrom (lo : Nat) (m n : Memory) (hm : Memory.wfFrom lo m = true)
    (hn : Memory.wfFrom lo n = true) (h : ∀ k, Memory.read m k = Memory.read n k) : m = n := by
  induction m generalizing lo n with
  | nil =>
    cases n with
    | nil => rfl
    | cons d n =>
      simp only [Memory.wfFrom, Bool.and_eq_true, decide_eq_true_eq] at hn
      have := h d.1
      rw [Memory.read_cell, if_pos rfl] at this
      exact absurd this.symm hn.1.2
  | cons c m ih =>
    obtain ⟨a, b⟩ := c
    cases n with
    | nil =>
      simp only [Memory.wfFrom, Bool.and_eq_true, decide_eq_true_eq] at hm
      have := h a
      rw [Memory.read_cell, if_pos rfl] at this
      exact absurd this hm.1.2
    | cons d n =>
      obtain ⟨a', b'⟩ := d
      simp only [Memory.wfFrom, Bool.and_eq_true, decide_eq_true_eq] at hm hn
      have haa : a = a' := by
        rcases Nat.lt_trichotomy a a' with hlt | heq | hgt
        · have := h a
          rw [Memory.read_cell, if_pos rfl, Memory.read_cell, if_neg (by omega),
            Memory.read_of_below _ _ hn.2 _ (by omega)] at this
          exact absurd this hm.1.2
        · exact heq
        · have := h a'
          rw [Memory.read_cell, if_neg (by omega), Memory.read_cell, if_pos rfl,
            Memory.read_of_below _ _ hm.2 _ (by omega)] at this
          exact absurd this.symm hn.1.2
      subst haa
      have hb : b = b' := by simpa [Memory.read_cell] using h a
      subst hb
      rw [ih (a + 1) n hm.2 hn.2 fun k => ?_]
      have := h k
      rw [Memory.read_cell, Memory.read_cell] at this
      by_cases hk : a = k
      · rw [Memory.read_of_below _ _ hm.2 _ (by omega), Memory.read_of_below _ _ hn.2 _ (by omega)]
      · simpa [hk] using this

/-- Canonical frames that read alike are the same data. -/
theorem Memory.ext (m n : Memory) (hm : Memory.wf m = true) (hn : Memory.wf n = true)
    (h : ∀ k, Memory.read m k = Memory.read n k) : m = n :=
  Memory.extFrom 0 m n hm hn h

theorem reset_frame_wf : Memory.wf State.reset.inFrame = true := rfl

end Sys2Proof.Machine
end

