-- ==== Sys2Proof/Laws/State.lean ====
section
/-! SUPPORT. What each named update of State does to each field, one lemma per field and update. -/

namespace Sys2Proof.Machine

/-! ## `withTick` -/

@[simp] theorem State.withTick_tickCount (s : State) (t : Byte) : (s.withTick t).tickCount = t := rfl
@[simp] theorem State.withTick_strobeState (s : State) (t : Byte) : (s.withTick t).strobeState = s.strobeState := rfl
@[simp] theorem State.withTick_wasActive (s : State) (t : Byte) : (s.withTick t).wasActive = s.wasActive := rfl
@[simp] theorem State.withTick_effOut (s : State) (t : Byte) : (s.withTick t).effOut = s.effOut := rfl
@[simp] theorem State.withTick_ledOut (s : State) (t : Byte) : (s.withTick t).ledOut = s.ledOut := rfl
@[simp] theorem State.withTick_outputsWritten (s : State) (t : Byte) : (s.withTick t).outputsWritten = s.outputsWritten := rfl
@[simp] theorem State.withTick_phase (s : State) (t : Byte) : (s.withTick t).phase = s.phase := rfl
@[simp] theorem State.withTick_snapMaster (s : State) (t : Byte) : (s.withTick t).snapMaster = s.snapMaster := rfl
@[simp] theorem State.withTick_snapSpeed (s : State) (t : Byte) : (s.withTick t).snapSpeed = s.snapSpeed := rfl
@[simp] theorem State.withTick_snapTicks (s : State) (t : Byte) : (s.withTick t).snapTicks = s.snapTicks := rfl
@[simp] theorem State.withTick_snapLed (s : State) (t : Byte) : (s.withTick t).snapLed = s.snapLed := rfl
@[simp] theorem State.withTick_inFrame (s : State) (t : Byte) : (s.withTick t).inFrame = s.inFrame := rfl
@[simp] theorem State.withTick_faulted (s : State) (t : Byte) : (s.withTick t).faulted = s.faulted := rfl
@[simp] theorem State.withTick_refused (s : State) (t : Byte) : (s.withTick t).refused = s.refused := rfl
@[simp] theorem State.withTick_schedule (s : State) (t : Byte) : (s.withTick t).schedule = s.schedule := rfl
@[simp] theorem State.withTick_returned (s : State) (t : Byte) : (s.withTick t).returned = s.returned := rfl

/-! ## `withFlags` -/

@[simp] theorem State.withFlags_tickCount (s : State) (st : StrobeState) (was : Bool) : (s.withFlags st was).tickCount = s.tickCount := rfl
@[simp] theorem State.withFlags_strobeState (s : State) (st : StrobeState) (was : Bool) : (s.withFlags st was).strobeState = st := rfl
@[simp] theorem State.withFlags_wasActive (s : State) (st : StrobeState) (was : Bool) : (s.withFlags st was).wasActive = was := rfl
@[simp] theorem State.withFlags_effOut (s : State) (st : StrobeState) (was : Bool) : (s.withFlags st was).effOut = s.effOut := rfl
@[simp] theorem State.withFlags_ledOut (s : State) (st : StrobeState) (was : Bool) : (s.withFlags st was).ledOut = s.ledOut := rfl
@[simp] theorem State.withFlags_outputsWritten (s : State) (st : StrobeState) (was : Bool) : (s.withFlags st was).outputsWritten = s.outputsWritten := rfl
@[simp] theorem State.withFlags_phase (s : State) (st : StrobeState) (was : Bool) : (s.withFlags st was).phase = s.phase := rfl
@[simp] theorem State.withFlags_snapMaster (s : State) (st : StrobeState) (was : Bool) : (s.withFlags st was).snapMaster = s.snapMaster := rfl
@[simp] theorem State.withFlags_snapSpeed (s : State) (st : StrobeState) (was : Bool) : (s.withFlags st was).snapSpeed = s.snapSpeed := rfl
@[simp] theorem State.withFlags_snapTicks (s : State) (st : StrobeState) (was : Bool) : (s.withFlags st was).snapTicks = s.snapTicks := rfl
@[simp] theorem State.withFlags_snapLed (s : State) (st : StrobeState) (was : Bool) : (s.withFlags st was).snapLed = s.snapLed := rfl
@[simp] theorem State.withFlags_inFrame (s : State) (st : StrobeState) (was : Bool) : (s.withFlags st was).inFrame = s.inFrame := rfl
@[simp] theorem State.withFlags_faulted (s : State) (st : StrobeState) (was : Bool) : (s.withFlags st was).faulted = s.faulted := rfl
@[simp] theorem State.withFlags_refused (s : State) (st : StrobeState) (was : Bool) : (s.withFlags st was).refused = s.refused := rfl
@[simp] theorem State.withFlags_schedule (s : State) (st : StrobeState) (was : Bool) : (s.withFlags st was).schedule = s.schedule := rfl
@[simp] theorem State.withFlags_returned (s : State) (st : StrobeState) (was : Bool) : (s.withFlags st was).returned = s.returned := rfl

/-! ## `withOutputs` -/

@[simp] theorem State.withOutputs_tickCount (s : State) (eff : Byte) (leds : Vector Byte Config.nLed) : (s.withOutputs eff leds).tickCount = s.tickCount := rfl
@[simp] theorem State.withOutputs_strobeState (s : State) (eff : Byte) (leds : Vector Byte Config.nLed) : (s.withOutputs eff leds).strobeState = s.strobeState := rfl
@[simp] theorem State.withOutputs_wasActive (s : State) (eff : Byte) (leds : Vector Byte Config.nLed) : (s.withOutputs eff leds).wasActive = s.wasActive := rfl
@[simp] theorem State.withOutputs_effOut (s : State) (eff : Byte) (leds : Vector Byte Config.nLed) : (s.withOutputs eff leds).effOut = eff := rfl
@[simp] theorem State.withOutputs_ledOut (s : State) (eff : Byte) (leds : Vector Byte Config.nLed) : (s.withOutputs eff leds).ledOut = leds := rfl
@[simp] theorem State.withOutputs_outputsWritten (s : State) (eff : Byte) (leds : Vector Byte Config.nLed) : (s.withOutputs eff leds).outputsWritten = true := rfl
@[simp] theorem State.withOutputs_phase (s : State) (eff : Byte) (leds : Vector Byte Config.nLed) : (s.withOutputs eff leds).phase = s.phase := rfl
@[simp] theorem State.withOutputs_snapMaster (s : State) (eff : Byte) (leds : Vector Byte Config.nLed) : (s.withOutputs eff leds).snapMaster = s.snapMaster := rfl
@[simp] theorem State.withOutputs_snapSpeed (s : State) (eff : Byte) (leds : Vector Byte Config.nLed) : (s.withOutputs eff leds).snapSpeed = s.snapSpeed := rfl
@[simp] theorem State.withOutputs_snapTicks (s : State) (eff : Byte) (leds : Vector Byte Config.nLed) : (s.withOutputs eff leds).snapTicks = s.snapTicks := rfl
@[simp] theorem State.withOutputs_snapLed (s : State) (eff : Byte) (leds : Vector Byte Config.nLed) : (s.withOutputs eff leds).snapLed = s.snapLed := rfl
@[simp] theorem State.withOutputs_inFrame (s : State) (eff : Byte) (leds : Vector Byte Config.nLed) : (s.withOutputs eff leds).inFrame = s.inFrame := rfl
@[simp] theorem State.withOutputs_faulted (s : State) (eff : Byte) (leds : Vector Byte Config.nLed) : (s.withOutputs eff leds).faulted = s.faulted := rfl
@[simp] theorem State.withOutputs_refused (s : State) (eff : Byte) (leds : Vector Byte Config.nLed) : (s.withOutputs eff leds).refused = s.refused := rfl
@[simp] theorem State.withOutputs_schedule (s : State) (eff : Byte) (leds : Vector Byte Config.nLed) : (s.withOutputs eff leds).schedule = s.schedule := rfl
@[simp] theorem State.withOutputs_returned (s : State) (eff : Byte) (leds : Vector Byte Config.nLed) : (s.withOutputs eff leds).returned = s.returned := rfl

/-! ## `withPhase` -/

@[simp] theorem State.withPhase_tickCount (s : State) (ph : Phase) : (s.withPhase ph).tickCount = s.tickCount := rfl
@[simp] theorem State.withPhase_strobeState (s : State) (ph : Phase) : (s.withPhase ph).strobeState = s.strobeState := rfl
@[simp] theorem State.withPhase_wasActive (s : State) (ph : Phase) : (s.withPhase ph).wasActive = s.wasActive := rfl
@[simp] theorem State.withPhase_effOut (s : State) (ph : Phase) : (s.withPhase ph).effOut = s.effOut := rfl
@[simp] theorem State.withPhase_ledOut (s : State) (ph : Phase) : (s.withPhase ph).ledOut = s.ledOut := rfl
@[simp] theorem State.withPhase_outputsWritten (s : State) (ph : Phase) : (s.withPhase ph).outputsWritten = s.outputsWritten := rfl
@[simp] theorem State.withPhase_phase (s : State) (ph : Phase) : (s.withPhase ph).phase = ph := rfl
@[simp] theorem State.withPhase_snapMaster (s : State) (ph : Phase) : (s.withPhase ph).snapMaster = s.snapMaster := rfl
@[simp] theorem State.withPhase_snapSpeed (s : State) (ph : Phase) : (s.withPhase ph).snapSpeed = s.snapSpeed := rfl
@[simp] theorem State.withPhase_snapTicks (s : State) (ph : Phase) : (s.withPhase ph).snapTicks = s.snapTicks := rfl
@[simp] theorem State.withPhase_snapLed (s : State) (ph : Phase) : (s.withPhase ph).snapLed = s.snapLed := rfl
@[simp] theorem State.withPhase_inFrame (s : State) (ph : Phase) : (s.withPhase ph).inFrame = s.inFrame := rfl
@[simp] theorem State.withPhase_faulted (s : State) (ph : Phase) : (s.withPhase ph).faulted = s.faulted := rfl
@[simp] theorem State.withPhase_refused (s : State) (ph : Phase) : (s.withPhase ph).refused = s.refused := rfl
@[simp] theorem State.withPhase_schedule (s : State) (ph : Phase) : (s.withPhase ph).schedule = s.schedule := rfl
@[simp] theorem State.withPhase_returned (s : State) (ph : Phase) : (s.withPhase ph).returned = s.returned := rfl

/-! ## `withSnapshot` -/

@[simp] theorem State.withSnapshot_tickCount (s : State) (m p t : Byte) (leds : Vector Byte Config.nLed) : (s.withSnapshot m p t leds).tickCount = s.tickCount := rfl
@[simp] theorem State.withSnapshot_strobeState (s : State) (m p t : Byte) (leds : Vector Byte Config.nLed) : (s.withSnapshot m p t leds).strobeState = s.strobeState := rfl
@[simp] theorem State.withSnapshot_wasActive (s : State) (m p t : Byte) (leds : Vector Byte Config.nLed) : (s.withSnapshot m p t leds).wasActive = s.wasActive := rfl
@[simp] theorem State.withSnapshot_effOut (s : State) (m p t : Byte) (leds : Vector Byte Config.nLed) : (s.withSnapshot m p t leds).effOut = s.effOut := rfl
@[simp] theorem State.withSnapshot_ledOut (s : State) (m p t : Byte) (leds : Vector Byte Config.nLed) : (s.withSnapshot m p t leds).ledOut = s.ledOut := rfl
@[simp] theorem State.withSnapshot_outputsWritten (s : State) (m p t : Byte) (leds : Vector Byte Config.nLed) : (s.withSnapshot m p t leds).outputsWritten = s.outputsWritten := rfl
@[simp] theorem State.withSnapshot_phase (s : State) (m p t : Byte) (leds : Vector Byte Config.nLed) : (s.withSnapshot m p t leds).phase = s.phase := rfl
@[simp] theorem State.withSnapshot_snapMaster (s : State) (m p t : Byte) (leds : Vector Byte Config.nLed) : (s.withSnapshot m p t leds).snapMaster = m := rfl
@[simp] theorem State.withSnapshot_snapSpeed (s : State) (m p t : Byte) (leds : Vector Byte Config.nLed) : (s.withSnapshot m p t leds).snapSpeed = p := rfl
@[simp] theorem State.withSnapshot_snapTicks (s : State) (m p t : Byte) (leds : Vector Byte Config.nLed) : (s.withSnapshot m p t leds).snapTicks = t := rfl
@[simp] theorem State.withSnapshot_snapLed (s : State) (m p t : Byte) (leds : Vector Byte Config.nLed) : (s.withSnapshot m p t leds).snapLed = leds := rfl
@[simp] theorem State.withSnapshot_inFrame (s : State) (m p t : Byte) (leds : Vector Byte Config.nLed) : (s.withSnapshot m p t leds).inFrame = s.inFrame := rfl
@[simp] theorem State.withSnapshot_faulted (s : State) (m p t : Byte) (leds : Vector Byte Config.nLed) : (s.withSnapshot m p t leds).faulted = s.faulted := rfl
@[simp] theorem State.withSnapshot_refused (s : State) (m p t : Byte) (leds : Vector Byte Config.nLed) : (s.withSnapshot m p t leds).refused = s.refused := rfl
@[simp] theorem State.withSnapshot_schedule (s : State) (m p t : Byte) (leds : Vector Byte Config.nLed) : (s.withSnapshot m p t leds).schedule = s.schedule := rfl
@[simp] theorem State.withSnapshot_returned (s : State) (m p t : Byte) (leds : Vector Byte Config.nLed) : (s.withSnapshot m p t leds).returned = s.returned := rfl

/-! ## `withFrame` -/

@[simp] theorem State.withFrame_tickCount (s : State) (m : Memory) : (s.withFrame m).tickCount = s.tickCount := rfl
@[simp] theorem State.withFrame_strobeState (s : State) (m : Memory) : (s.withFrame m).strobeState = s.strobeState := rfl
@[simp] theorem State.withFrame_wasActive (s : State) (m : Memory) : (s.withFrame m).wasActive = s.wasActive := rfl
@[simp] theorem State.withFrame_effOut (s : State) (m : Memory) : (s.withFrame m).effOut = s.effOut := rfl
@[simp] theorem State.withFrame_ledOut (s : State) (m : Memory) : (s.withFrame m).ledOut = s.ledOut := rfl
@[simp] theorem State.withFrame_outputsWritten (s : State) (m : Memory) : (s.withFrame m).outputsWritten = s.outputsWritten := rfl
@[simp] theorem State.withFrame_phase (s : State) (m : Memory) : (s.withFrame m).phase = s.phase := rfl
@[simp] theorem State.withFrame_snapMaster (s : State) (m : Memory) : (s.withFrame m).snapMaster = s.snapMaster := rfl
@[simp] theorem State.withFrame_snapSpeed (s : State) (m : Memory) : (s.withFrame m).snapSpeed = s.snapSpeed := rfl
@[simp] theorem State.withFrame_snapTicks (s : State) (m : Memory) : (s.withFrame m).snapTicks = s.snapTicks := rfl
@[simp] theorem State.withFrame_snapLed (s : State) (m : Memory) : (s.withFrame m).snapLed = s.snapLed := rfl
@[simp] theorem State.withFrame_inFrame (s : State) (m : Memory) : (s.withFrame m).inFrame = m := rfl
@[simp] theorem State.withFrame_faulted (s : State) (m : Memory) : (s.withFrame m).faulted = s.faulted := rfl
@[simp] theorem State.withFrame_refused (s : State) (m : Memory) : (s.withFrame m).refused = s.refused := rfl
@[simp] theorem State.withFrame_schedule (s : State) (m : Memory) : (s.withFrame m).schedule = s.schedule := rfl
@[simp] theorem State.withFrame_returned (s : State) (m : Memory) : (s.withFrame m).returned = s.returned := rfl

/-! ## `withSchedule` -/

@[simp] theorem State.withSchedule_tickCount (s : State) (es : List Event) : (s.withSchedule es).tickCount = s.tickCount := rfl
@[simp] theorem State.withSchedule_strobeState (s : State) (es : List Event) : (s.withSchedule es).strobeState = s.strobeState := rfl
@[simp] theorem State.withSchedule_wasActive (s : State) (es : List Event) : (s.withSchedule es).wasActive = s.wasActive := rfl
@[simp] theorem State.withSchedule_effOut (s : State) (es : List Event) : (s.withSchedule es).effOut = s.effOut := rfl
@[simp] theorem State.withSchedule_ledOut (s : State) (es : List Event) : (s.withSchedule es).ledOut = s.ledOut := rfl
@[simp] theorem State.withSchedule_outputsWritten (s : State) (es : List Event) : (s.withSchedule es).outputsWritten = s.outputsWritten := rfl
@[simp] theorem State.withSchedule_phase (s : State) (es : List Event) : (s.withSchedule es).phase = s.phase := rfl
@[simp] theorem State.withSchedule_snapMaster (s : State) (es : List Event) : (s.withSchedule es).snapMaster = s.snapMaster := rfl
@[simp] theorem State.withSchedule_snapSpeed (s : State) (es : List Event) : (s.withSchedule es).snapSpeed = s.snapSpeed := rfl
@[simp] theorem State.withSchedule_snapTicks (s : State) (es : List Event) : (s.withSchedule es).snapTicks = s.snapTicks := rfl
@[simp] theorem State.withSchedule_snapLed (s : State) (es : List Event) : (s.withSchedule es).snapLed = s.snapLed := rfl
@[simp] theorem State.withSchedule_inFrame (s : State) (es : List Event) : (s.withSchedule es).inFrame = s.inFrame := rfl
@[simp] theorem State.withSchedule_faulted (s : State) (es : List Event) : (s.withSchedule es).faulted = s.faulted := rfl
@[simp] theorem State.withSchedule_refused (s : State) (es : List Event) : (s.withSchedule es).refused = s.refused := rfl
@[simp] theorem State.withSchedule_schedule (s : State) (es : List Event) : (s.withSchedule es).schedule = es := rfl
@[simp] theorem State.withSchedule_returned (s : State) (es : List Event) : (s.withSchedule es).returned = s.returned := rfl

/-! ## `giveBack` -/

@[simp] theorem State.giveBack_tickCount (s : State) (r : Returned) : (s.giveBack r).tickCount = s.tickCount := rfl
@[simp] theorem State.giveBack_strobeState (s : State) (r : Returned) : (s.giveBack r).strobeState = s.strobeState := rfl
@[simp] theorem State.giveBack_wasActive (s : State) (r : Returned) : (s.giveBack r).wasActive = s.wasActive := rfl
@[simp] theorem State.giveBack_effOut (s : State) (r : Returned) : (s.giveBack r).effOut = s.effOut := rfl
@[simp] theorem State.giveBack_ledOut (s : State) (r : Returned) : (s.giveBack r).ledOut = s.ledOut := rfl
@[simp] theorem State.giveBack_outputsWritten (s : State) (r : Returned) : (s.giveBack r).outputsWritten = s.outputsWritten := rfl
@[simp] theorem State.giveBack_phase (s : State) (r : Returned) : (s.giveBack r).phase = s.phase := rfl
@[simp] theorem State.giveBack_snapMaster (s : State) (r : Returned) : (s.giveBack r).snapMaster = s.snapMaster := rfl
@[simp] theorem State.giveBack_snapSpeed (s : State) (r : Returned) : (s.giveBack r).snapSpeed = s.snapSpeed := rfl
@[simp] theorem State.giveBack_snapTicks (s : State) (r : Returned) : (s.giveBack r).snapTicks = s.snapTicks := rfl
@[simp] theorem State.giveBack_snapLed (s : State) (r : Returned) : (s.giveBack r).snapLed = s.snapLed := rfl
@[simp] theorem State.giveBack_inFrame (s : State) (r : Returned) : (s.giveBack r).inFrame = s.inFrame := rfl
@[simp] theorem State.giveBack_faulted (s : State) (r : Returned) : (s.giveBack r).faulted = s.faulted := rfl
@[simp] theorem State.giveBack_refused (s : State) (r : Returned) : (s.giveBack r).refused = s.refused := rfl
@[simp] theorem State.giveBack_schedule (s : State) (r : Returned) : (s.giveBack r).schedule = s.schedule := rfl
@[simp] theorem State.giveBack_returned (s : State) (r : Returned) : (s.giveBack r).returned = r :: s.returned := rfl

/-! ## The marks -/

@[simp] theorem raiseFault_tickCount (r : Fault) (s : State) : (raiseFault r s).tickCount = s.tickCount := rfl
@[simp] theorem raiseFault_strobeState (r : Fault) (s : State) : (raiseFault r s).strobeState = s.strobeState := rfl
@[simp] theorem raiseFault_wasActive (r : Fault) (s : State) : (raiseFault r s).wasActive = s.wasActive := rfl
@[simp] theorem raiseFault_effOut (r : Fault) (s : State) : (raiseFault r s).effOut = s.effOut := rfl
@[simp] theorem raiseFault_ledOut (r : Fault) (s : State) : (raiseFault r s).ledOut = s.ledOut := rfl
@[simp] theorem raiseFault_outputsWritten (r : Fault) (s : State) : (raiseFault r s).outputsWritten = s.outputsWritten := rfl
@[simp] theorem raiseFault_phase (r : Fault) (s : State) : (raiseFault r s).phase = s.phase := rfl
@[simp] theorem raiseFault_snapMaster (r : Fault) (s : State) : (raiseFault r s).snapMaster = s.snapMaster := rfl
@[simp] theorem raiseFault_snapSpeed (r : Fault) (s : State) : (raiseFault r s).snapSpeed = s.snapSpeed := rfl
@[simp] theorem raiseFault_snapTicks (r : Fault) (s : State) : (raiseFault r s).snapTicks = s.snapTicks := rfl
@[simp] theorem raiseFault_snapLed (r : Fault) (s : State) : (raiseFault r s).snapLed = s.snapLed := rfl
@[simp] theorem raiseFault_inFrame (r : Fault) (s : State) : (raiseFault r s).inFrame = s.inFrame := rfl
@[simp] theorem raiseFault_faulted (r : Fault) (s : State) : (raiseFault r s).faulted = some r := rfl
@[simp] theorem raiseFault_refused (r : Fault) (s : State) : (raiseFault r s).refused = s.refused := rfl
@[simp] theorem raiseFault_schedule (r : Fault) (s : State) : (raiseFault r s).schedule = s.schedule := rfl
@[simp] theorem raiseFault_returned (r : Fault) (s : State) : (raiseFault r s).returned = s.returned := rfl

@[simp] theorem refuse_tickCount (r : Refusal) (s : State) : (refuse r s).tickCount = s.tickCount := rfl
@[simp] theorem refuse_strobeState (r : Refusal) (s : State) : (refuse r s).strobeState = s.strobeState := rfl
@[simp] theorem refuse_wasActive (r : Refusal) (s : State) : (refuse r s).wasActive = s.wasActive := rfl
@[simp] theorem refuse_effOut (r : Refusal) (s : State) : (refuse r s).effOut = s.effOut := rfl
@[simp] theorem refuse_ledOut (r : Refusal) (s : State) : (refuse r s).ledOut = s.ledOut := rfl
@[simp] theorem refuse_outputsWritten (r : Refusal) (s : State) : (refuse r s).outputsWritten = s.outputsWritten := rfl
@[simp] theorem refuse_phase (r : Refusal) (s : State) : (refuse r s).phase = s.phase := rfl
@[simp] theorem refuse_snapMaster (r : Refusal) (s : State) : (refuse r s).snapMaster = s.snapMaster := rfl
@[simp] theorem refuse_snapSpeed (r : Refusal) (s : State) : (refuse r s).snapSpeed = s.snapSpeed := rfl
@[simp] theorem refuse_snapTicks (r : Refusal) (s : State) : (refuse r s).snapTicks = s.snapTicks := rfl
@[simp] theorem refuse_snapLed (r : Refusal) (s : State) : (refuse r s).snapLed = s.snapLed := rfl
@[simp] theorem refuse_inFrame (r : Refusal) (s : State) : (refuse r s).inFrame = s.inFrame := rfl
@[simp] theorem refuse_faulted (r : Refusal) (s : State) : (refuse r s).faulted = s.faulted := rfl
@[simp] theorem refuse_refused (r : Refusal) (s : State) : (refuse r s).refused = some r := rfl
@[simp] theorem refuse_schedule (r : Refusal) (s : State) : (refuse r s).schedule = s.schedule := rfl
@[simp] theorem refuse_returned (r : Refusal) (s : State) : (refuse r s).returned = s.returned := rfl

end Sys2Proof.Machine
end

