-- ==== Sys2Proof/Laws/Units.lean ====
section
/-! SUPPORT. What the three combinational units give, in numbers and case by case. -/

namespace Sys2Proof.Machine

theorem zext16_toNat (b : Byte) : (zext16 b).toNat = b.toNat := by
  have := b.isLt
  simp only [zext16, BitVec.toNat_setWidth]
  omega

/-- R65: the product does not wrap. -/
theorem offMap_product (p : Byte) : (zext16 p * Config.offStep).toNat = p.toNat * 190 := by
  have h := p.isLt
  have hs : Config.offStep.toNat = 190 := by decide
  rw [BitVec.toNat_mul, zext16_toNat, hs]
  exact Nat.mod_eq_of_lt (by omega)

/-- R65: the numerator neither wraps nor goes negative. -/
theorem offMap_numerator (p : Byte) :
    (Config.offNum - zext16 p * Config.offStep).toNat = 51000 - p.toNat * 190 := by
  have h := p.isLt
  have hn : Config.offNum.toNat = 51000 := by decide
  rw [BitVec.toNat_sub_of_le (by rw [BitVec.le_def, offMap_product, hn]; omega), offMap_product, hn]

/-- R61: the mapper's formula in numbers. -/
theorem offMap_toNat (p : Byte) : (offMap p).toNat = (51000 - p.toNat * 190) / 255 := by
  simp only [offMap, low8, Config.offDen, BitVec.toNat_setWidth, BitVec.toNat_udiv, BitVec.toNat_ofNat,
    Nat.reducePow, Nat.reduceMod, offMap_numerator]
  omega

/-- R62: no threshold lies below 10 or above 200. -/
theorem offMap_range (p : Byte) : 10 ≤ (offMap p).toNat ∧ (offMap p).toNat ≤ 200 := by
  have := p.isLt
  rw [offMap_toNat]
  omega

theorem product_lt (r b : Byte) : r.toNat * b.toNat ≤ 65025 :=
  Nat.mul_le_mul (Nat.le_of_lt_succ r.isLt : r.toNat ≤ 255) (Nat.le_of_lt_succ b.isLt : b.toNat ≤ 255)

/-- R80: the scaler's formula in numbers. -/
theorem scale_toNat (r b : Byte) : (scale r b).toNat = r.toNat * b.toNat / 255 := by
  have h := product_lt r b
  have hr := zext16_toNat r
  have hb := zext16_toNat b
  simp only [scale, low8, Config.scaleDen, BitVec.toNat_setWidth, BitVec.toNat_udiv, BitVec.toNat_mul,
    BitVec.toNat_ofNat, Nat.reducePow, Nat.reduceMod, hr, hb]
  omega

/-- R83: a lane never exceeds the brightness. -/
theorem scale_le_brightness (r b : Byte) : scale r b ≤ b := by
  rw [BitVec.le_def, scale_toNat]
  have : r.toNat * b.toNat ≤ 255 * b.toNat := Nat.mul_le_mul_right _ (by omega)
  omega

/-! ## The transition function, row by row (R74) -/

theorem transition_disabled (s : StrobeState) (a : Bool) (t m : Byte) :
    transition s a t m 0 = ⟨.on, m, false⟩ := rfl

theorem transition_edge (s : StrobeState) (t m p : Byte) (hp : p ≠ 0) :
    transition s false t m p = ⟨.on, m, true⟩ := by
  have hp0 : ¬ p = 0#8 := hp
  simp [transition, risingEdge, activeFlag, hp0, forcedState, forcedTicks, litPhase, Config.onTimeTicks]

theorem transition_lit (t m p : Byte) (hp : p ≠ 0) :
    transition .on true t m p = if 4 ≤ t.toNat then ⟨.off, 0, true⟩ else ⟨.on, m, false⟩ := by
  have hp0 : ¬ p = 0#8 := hp
  simp [transition, risingEdge, hp0, forcedState, forcedTicks, litPhase, Config.onTimeTicks, BitVec.le_def]

theorem transition_dark (t m p : Byte) (hp : p ≠ 0) :
    transition .off true t m p = if (offMap p).toNat < t.toNat then ⟨.on, m, true⟩ else ⟨.off, 0, false⟩ := by
  have hp0 : ¬ p = 0#8 := hp
  simp [transition, risingEdge, hp0, forcedState, forcedTicks, darkPhase, BitVec.lt_def]

/-- While `was_active` is 0 the transition ignores the state and the ticks (rows T1 and T2). -/
theorem transition_inactive (s s' : StrobeState) (t t' m p : Byte) :
    transition s false t m p = transition s' false t' m p := by
  by_cases hp : p = 0
  · subst hp; rfl
  · rw [transition_edge s t m p hp, transition_edge s' t' m p hp]

/-- An OFF result carries brightness 0, and an ON result the master brightness. -/
theorem transition_eff (s : StrobeState) (a : Bool) (t m p : Byte) :
    (transition s a t m p).eff = match (transition s a t m p).ns with | .off => 0 | .on => m := by
  by_cases hp : p = 0
  · subst hp; rfl
  · cases a
    · rw [transition_edge s t m p hp]
    · cases s
      · rw [transition_dark t m p hp]; split <;> rfl
      · rw [transition_lit t m p hp]; split <;> rfl

end Sys2Proof.Machine
end

