-- ==== Sys2Proof/Laws/Exec.lean ====
section
/-! SUPPORT. One lemma per meaning and per shared operation: everything it can do. -/

namespace Sys2Proof.Machine

/-! ## Shared operations -/

theorem scaleStage_eq (s : State) (eff : Byte) :
    scaleStage s eff = s.withOutputs eff (Vector.ofFn fun i => scale s.snapLed[i] eff) := rfl

/-- A tick reset, when asked for, writes the counter alone. -/
theorem tickResetIf_eq (rr : Bool) (s : State) :
    tickResetIf rr s = s.withTick (if rr then 0 else s.tickCount) := by
  cases rr <;> rfl

/-- Everything COMMIT writes, as one update. -/
theorem commitWrites_eq (s : State) :
    commitWrites s =
      { s with
        tickCount := if (commitTransition s).rr then 0 else s.tickCount
        strobeState := (commitTransition s).ns
        wasActive := activeFlag s.snapSpeed
        effOut := (commitTransition s).eff
        ledOut := Vector.ofFn fun i => scale s.snapLed[i] (commitTransition s).eff
        outputsWritten := true
        phase := .ready } := by
  rw [commitWrites]
  cases (commitTransition s).rr <;> rfl

/-! ## The meanings -/

@[simp] theorem exec_rst (s : State) : exec .rst s = .next (resetRegisters s) := rfl

@[simp] theorem exec_tick (s : State) : exec .tick s = .next (s.withTick (s.tickCount + 1)) := rfl

theorem exec_sample_ready (s : State) (h : s.phase = .ready) :
    exec .sample s =
      .next ((s.withSnapshot (inMaster s) (inSpeed s) s.tickCount (inLeds s)).withPhase .sampled) := by
  simp [exec, execSample, h, tickRead]

theorem exec_sample_sampled (s : State) (h : s.phase = .sampled) :
    exec .sample s = .refused (.phaseOrder (encode .sample) .sampled) := by
  simp [exec, execSample, h]

theorem exec_commit_sampled (s : State) (h : s.phase = .sampled) :
    exec .commit s = .next (commitWrites s) := by
  simp [exec, execCommit, h]

theorem exec_commit_ready (s : State) (h : s.phase = .ready) :
    exec .commit s = .refused (.phaseOrder (encode .commit) .ready) := by
  simp [exec, execCommit, h]

theorem exec_hostWr_in (k : BitVec 10) (v : Byte) (s : State) (h : k.toNat ≤ lastOffset) :
    exec (.hostWr k v) s = .next (s.withFrame (Memory.write s.inFrame k.toNat v)) := by
  simp [exec, execHostWr, h, frameWrite]

theorem exec_hostWr_out (k : BitVec 10) (v : Byte) (s : State) (h : ¬ k.toNat ≤ lastOffset) :
    exec (.hostWr k v) s = .refused (.offsetOutOfFrame (encode (.hostWr k v)) k) := by
  simp [exec, execHostWr, h]

@[simp] theorem exec_fOffmap (p : Byte) (s : State) :
    exec (.fOffmap p) s = .next (s.giveBack (.offTicks (offMap p))) := rfl

@[simp] theorem exec_fNext (n : StrobeState) (a : Bool) (t m p : Byte) (s : State) :
    exec (.fNext n a t m p) s = .next (s.giveBack (.transition (transition n a t m p))) := rfl

@[simp] theorem exec_fScale (r b : Byte) (s : State) :
    exec (.fScale r b) s = .next (s.giveBack (.scaled (scale r b))) := rfl

/-- Everything an operation that takes a step can do. -/
theorem exec_cases (i : Instr) (s t : State) (h : exec i s = .next t) :
    (i = .rst ∧ t = resetRegisters s) ∨
    (i = .tick ∧ t = s.withTick (s.tickCount + 1)) ∨
    (i = .sample ∧ s.phase = .ready ∧
      t = (s.withSnapshot (inMaster s) (inSpeed s) s.tickCount (inLeds s)).withPhase .sampled) ∨
    (i = .commit ∧ s.phase = .sampled ∧ t = commitWrites s) ∨
    (∃ k v, i = .hostWr k v ∧ k.toNat ≤ lastOffset ∧ t = s.withFrame (Memory.write s.inFrame k.toNat v)) ∨
    (∃ r, t = s.giveBack r ∧
      ((∃ p, i = .fOffmap p ∧ r = .offTicks (offMap p)) ∨
       (∃ n a u m p, i = .fNext n a u m p ∧ r = .transition (transition n a u m p)) ∨
       (∃ x b, i = .fScale x b ∧ r = .scaled (scale x b)))) := by
  cases i with
  | rst => exact .inl ⟨rfl, (Host.Outcome.next.inj h).symm⟩
  | tick => exact .inr (.inl ⟨rfl, (Host.Outcome.next.inj h).symm⟩)
  | sample =>
    cases hp : s.phase with
    | ready =>
      rw [exec_sample_ready s hp] at h
      exact .inr (.inr (.inl ⟨rfl, rfl, (Host.Outcome.next.inj h).symm⟩))
    | sampled => rw [exec_sample_sampled s hp] at h; cases h
  | commit =>
    cases hp : s.phase with
    | ready => rw [exec_commit_ready s hp] at h; cases h
    | sampled =>
      rw [exec_commit_sampled s hp] at h
      exact .inr (.inr (.inr (.inl ⟨rfl, rfl, (Host.Outcome.next.inj h).symm⟩)))
  | hostWr k v =>
    by_cases hk : k.toNat ≤ lastOffset
    · rw [exec_hostWr_in k v s hk] at h
      exact .inr (.inr (.inr (.inr (.inl ⟨k, v, rfl, hk, (Host.Outcome.next.inj h).symm⟩))))
    · rw [exec_hostWr_out k v s hk] at h; cases h
  | fOffmap p =>
    exact .inr (.inr (.inr (.inr (.inr
      ⟨_, (Host.Outcome.next.inj h).symm, .inl ⟨p, rfl, rfl⟩⟩))))
  | fNext n a u m p =>
    exact .inr (.inr (.inr (.inr (.inr
      ⟨_, (Host.Outcome.next.inj h).symm, .inr (.inl ⟨n, a, u, m, p, rfl, rfl⟩)⟩))))
  | fScale x b =>
    exact .inr (.inr (.inr (.inr (.inr
      ⟨_, (Host.Outcome.next.inj h).symm, .inr (.inr ⟨x, b, rfl, rfl⟩)⟩))))

/-! ## Port reads and events -/

theorem readPort_cases (p : Port) (s t : State) (h : readPort p s = .next t) :
    ∃ v, observe s p = .ok v ∧ t = s.giveBack (.port p v) := by
  cases ho : observe s p with
  | ok v =>
    simp only [readPort, ho] at h
    exact ⟨v, rfl, (Host.Outcome.next.inj h).symm⟩
  | error f => simp [readPort, ho] at h

/-- Everything a step can do: the next event is a word that decodes and whose operation takes its step, or a
port read that gives a value. -/
theorem step_cases (s t : State) (h : step s = .next t) :
    s.faulted = none ∧ ∃ e rest, s.schedule = e :: rest ∧
      ((∃ w i, e = .word w ∧ decode w = .ok i ∧ exec i (s.withSchedule rest) = .next t) ∨
       (∃ p v, e = .read p ∧ observe (s.withSchedule rest) p = .ok v ∧
         t = (s.withSchedule rest).giveBack (.port p v))) := by
  cases hf : s.faulted with
  | some f => simp [step, performUnlessFaulted, hf] at h
  | none =>
    cases hs : s.schedule with
    | nil => simp [step, performUnlessFaulted, hf, performNext, hs] at h
    | cons e rest =>
      simp only [step, performUnlessFaulted, hf, performNext, hs] at h
      refine ⟨rfl, e, rest, rfl, ?_⟩
      cases e with
      | word w =>
        simp only [performEvent, performWord] at h
        cases hd : decode w with
        | ok i => exact .inl ⟨w, i, rfl, hd, by simpa [hd] using h⟩
        | error e => simp [hd] at h
      | read p =>
        obtain ⟨v, hv, ht⟩ := readPort_cases p _ t h
        exact .inr ⟨p, v, rfl, hv, ht⟩

end Sys2Proof.Machine
end

