-- ==== Sys2Proof/Laws/PerInstr.lean ====
section
/-! SUPPORT. Families of lemmas with one lemma per constructor of `Instr`: an operation's word carries its
operation code (R45), zero reserved bits (R48), and fields that read back as its operands (R47). -/

namespace Sys2Proof.Laws.EncodeOpcode

/-- R45: the operation code of an operation's word. -/
def Statement (i : Instr) : Prop := opField (encode i) = i.opCode.bits

theorem rst : Statement .rst := opField_wordOf _ _ (by omega)
theorem tick : Statement .tick := opField_wordOf _ _ (by omega)
theorem sample : Statement .sample := opField_wordOf _ _ (by omega)
theorem commit : Statement .commit := opField_wordOf _ _ (by omega)
theorem hostWr (k : BitVec 10) (v : Byte) : Statement (.hostWr k v) := opField_wordOf _ _ (by omega)
theorem fOffmap (p : Byte) : Statement (.fOffmap p) := opField_wordOf _ _ (by omega)
theorem fNext (s : StrobeState) (a : Bool) (t m p : Byte) : Statement (.fNext s a t m p) := by
  have := s.bit.isLt
  have := a.toNat_lt
  exact opField_wordOf _ _ (by omega)
theorem fScale (r b : Byte) : Statement (.fScale r b) := opField_wordOf _ _ (by omega)

end Sys2Proof.Laws.EncodeOpcode

namespace Sys2Proof.Laws.EncodeReserved

/-- R48: the reserved bits of an operation's word are zero. -/
def Statement (i : Instr) : Prop := i.opCode.reservedZero (encode i) = true

theorem rst : Statement .rst := by rfl
theorem tick : Statement .tick := by rfl
theorem sample : Statement .sample := by rfl
theorem commit : Statement .commit := by rfl
theorem hostWr (k : BitVec 10) (v : Byte) : Statement (.hostWr k v) := by
  simp only [Statement, Instr.opCode, OpCode.reservedZero, encode, Bool.and_eq_true, beq_iff_eq]
  exact ⟨bitsAt_wordOf_eq _ _ 26 0#2 (by omega) (by omega) (by simp; omega),
    bitsAt_wordOf_eq _ _ 8 0#8 (by omega) (by omega) (by simp; omega)⟩
theorem fOffmap (p : Byte) : Statement (.fOffmap p) := by
  simp only [Statement, Instr.opCode, OpCode.reservedZero, encode, beq_iff_eq]
  exact bitsAt_wordOf_eq _ _ 8 0#20 (by omega) (by omega) (by simp; omega)
theorem fNext (s : StrobeState) (a : Bool) (t m p : Byte) : Statement (.fNext s a t m p) := by
  have := s.bit.isLt
  have := a.toNat_lt
  simp only [Statement, Instr.opCode, OpCode.reservedZero, encode, beq_iff_eq]
  exact bitsAt_wordOf_eq _ _ 26 0#2 (by omega) (by omega) (by simp; omega)
theorem fScale (r b : Byte) : Statement (.fScale r b) := by
  simp only [Statement, Instr.opCode, OpCode.reservedZero, encode, beq_iff_eq]
  exact bitsAt_wordOf_eq _ _ 16 0#12 (by omega) (by omega) (by simp; omega)

end Sys2Proof.Laws.EncodeReserved

namespace Sys2Proof.Laws.EncodeFields

/-- R47: the fields of a well-formed operation's word read back as its operands. -/
def Statement (i : Instr) : Prop := i.wf = true → decodeFields i.opCode (encode i) = .ok i

theorem rst : Statement .rst := fun _ => rfl
theorem tick : Statement .tick := fun _ => rfl
theorem sample : Statement .sample := fun _ => rfl
theorem commit : Statement .commit := fun _ => rfl
theorem hostWr (k : BitVec 10) (v : Byte) : Statement (.hostWr k v) := by
  intro h
  have hk : kField (encode (.hostWr k v)) = k := bitsAt_wordOf_eq _ _ 16 k (by omega) (by omega) (by omega)
  have hv : lowField (encode (.hostWr k v)) = v := bitsAt_wordOf_eq _ _ 0 v (by omega) (by omega) (by omega)
  simp only [Instr.wf, decide_eq_true_eq] at h
  simp only [Instr.opCode, decodeFields, hk, hv, h, if_true]
theorem fOffmap (p : Byte) : Statement (.fOffmap p) := by
  intro _
  have hp : lowField (encode (.fOffmap p)) = p := bitsAt_wordOf_eq _ _ 0 p (by omega) (by omega) (by omega)
  simp only [Instr.opCode, decodeFields, hp]
theorem fNext (s : StrobeState) (a : Bool) (t m p : Byte) : Statement (.fNext s a t m p) := by
  intro _
  have hs1 := s.bit.isLt
  have ha1 := a.toNat_lt
  have hbs : bitsAt (encode (.fNext s a t m p)) 25 1 = s.bit :=
    bitsAt_wordOf_eq _ _ 25 s.bit (by omega) (by omega) (by omega)
  have hba : bitsAt (encode (.fNext s a t m p)) 24 1 = BitVec.ofBool a :=
    bitsAt_wordOf_eq _ _ 24 _ (by omega) (by omega) (by rw [BitVec.toNat_ofBool]; omega)
  have hs : sField (encode (.fNext s a t m p)) = s := by rw [sField, hbs]; cases s <;> rfl
  have ha : aField (encode (.fNext s a t m p)) = a := by rw [aField, hba]; cases a <;> rfl
  have ht : tField (encode (.fNext s a t m p)) = t := bitsAt_wordOf_eq _ _ 16 t (by omega) (by omega) (by omega)
  have hm : midField (encode (.fNext s a t m p)) = m := bitsAt_wordOf_eq _ _ 8 m (by omega) (by omega) (by omega)
  have hp : lowField (encode (.fNext s a t m p)) = p := bitsAt_wordOf_eq _ _ 0 p (by omega) (by omega) (by omega)
  simp only [Instr.opCode, decodeFields, hs, ha, ht, hm, hp]
theorem fScale (r b : Byte) : Statement (.fScale r b) := by
  intro _
  have hr : midField (encode (.fScale r b)) = r := bitsAt_wordOf_eq _ _ 8 r (by omega) (by omega) (by omega)
  have hb : lowField (encode (.fScale r b)) = b := bitsAt_wordOf_eq _ _ 0 b (by omega) (by omega) (by omega)
  simp only [Instr.opCode, decodeFields, hr, hb]

end Sys2Proof.Laws.EncodeFields
end

