-- ==== Sys2Proof/Tests/Slice0.lean ====
section
/-! SUPPORT. The model's own tests, with expected results from spec/95_test_vectors.md or worked out by hand from
the formats of spec/30_encoding.md, and a witness for the hypotheses of every statement that has any. -/

namespace Sys2Proof.Tests

open Sys2Proof Sys2Proof.Machine

/-- The state an outcome goes on with, if it does. -/
def goesTo (o : Host.Outcome State Fault Refusal) : Option State :=
  match o with
  | .next s => some s
  | .fault _ => none
  | .refused _ => none

/-- The reason an outcome was refused, if it was. -/
def refusal (o : Host.Outcome State Fault Refusal) : Option Refusal :=
  match o with
  | .next _ => none
  | .fault _ => none
  | .refused r => some r

/-! ## Well-formedness and parameters -/

theorem test_wf_refuses_offset_10 : (Instr.hostWr 10 0).wf = false := by decide
theorem test_wf_admits_offset_9 : (Instr.hostWr 9 255).wf = true := by decide
/-- R4: `1 <= N_LED <= 510`. -/
theorem test_nLed_in_range : 1 ≤ Config.nLed ∧ Config.nLed ≤ 510 := by decide

/-! ## Decoding, from the words of 95_test_vectors.md -/

theorem test_decode_rst : decode 0x00000000 = .ok .rst := by decide
theorem test_decode_tick : decode 0x10000000 = .ok .tick := by decide
theorem test_decode_sample : decode 0x20000000 = .ok .sample := by decide
theorem test_decode_commit : decode 0x30000000 = .ok .commit := by decide
/-- Z13. -/
theorem test_decode_hostWr : decode 0x400900FF = .ok (.hostWr 9 255) := by decide
/-- M4. -/
theorem test_decode_fOffmap : decode 0x8000000A = .ok (.fOffmap 10) := by decide
/-- N2 and N7. -/
theorem test_decode_fNext : decode 0x9304C80A = .ok (.fNext .on true 4 200 10) ∧
    decode 0x90C8C80A = .ok (.fNext .off false 200 200 10) := by decide
/-- S3. -/
theorem test_decode_fScale : decode 0xA0006480 = .ok (.fScale 100 128) := by decide
/-- Z1 to Z4. -/
theorem test_decode_reserved_codes : ([0x50000000, 0x5FFFFFFF, 0xF0000000, 0xB0000000].map decode) =
    List.replicate 4 (.error .reservedOp) := by decide
/-- Z5 to Z10. -/
theorem test_decode_reserved_bits :
    ([0x10000001, 0x4C000000, 0x40000100, 0x94000000, 0x80000100, 0xA0010000].map decode) =
      List.replicate 6 (.error .reservedBits) := by decide
/-- Z11 and Z12. -/
theorem test_decode_offset : decode 0x400A0000 = .error (.offsetOutOfFrame 10) ∧
    decode 0x43FF00FF = .error (.offsetOutOfFrame 1023) := by decide
theorem test_encode_fNext : encode (.fNext .off true 193 200 10) = 0x91C1C80A := by decide
theorem test_table_word : decodeTableWord 32 0x400900FF = some (.hostWr 9 255) := by decide
theorem test_table_word_refused : decodeTableWord 32 0x50000000 = none := by decide

/-! ## One step of each operation -/

/-- A state in mid-strobe: ON, active, ready, the counter at `t`, the frame `(200, 10, 100, 0, ...)`. -/
def lit (t : Byte) : State :=
  { State.reset with
    tickCount := t, strobeState := .on, wasActive := true,
    inFrame := [(0, 200), (1, 10), (2, 100)] }

/-- The same after a SAMPLE. -/
def litSampled (t : Byte) : State :=
  { lit t with
    phase := .sampled, snapMaster := 200, snapSpeed := 10, snapTicks := t,
    snapLed := Vector.ofFn fun i => if i.val = 0 then 100 else 0 }

/-- X1. -/
theorem test_rst : ((goesTo (exec .rst (litSampled 93))).map fun s =>
    (s.tickCount, s.strobeState, s.wasActive, s.outputsWritten, s.phase)) =
      some (0, .off, false, false, .ready) ∧
    ((goesTo (exec .rst (litSampled 93))).map (·.inFrame)) = some [(0, 200), (1, 10), (2, 100)] := by decide
/-- K3. -/
theorem test_tick_wraps : ((goesTo (exec .tick (lit 255))).map (·.tickCount)) = some 0 := by decide
/-- K4. -/
theorem test_tick_leaves_snapshot : ((goesTo (exec .tick (litSampled 7))).map fun s =>
    (s.tickCount, s.snapTicks, s.phase)) = some (8, 7, .sampled) := by decide
/-- R66, its example. -/
theorem test_sample_latches : goesTo (exec .sample (lit 7)) = some (litSampled 7) := by decide
/-- Z17. -/
theorem test_sample_out_of_phase : refusal (exec .sample (litSampled 7)) =
    some (.phaseOrder 0x20000000 .sampled) := by decide
/-- Q1. -/
theorem test_commit_ends_flash : ((goesTo (exec .commit (litSampled 4))).map fun s =>
    (s.strobeState, s.wasActive, s.effOut, s.ledOut.toList, s.tickCount, s.phase)) =
      some (.off, true, 0, List.replicate 8 0, 0, .ready) := by decide
/-- Q3, without its tick: 100 at 200 scales to 78. -/
theorem test_commit_keeps_flash : ((goesTo (exec .commit (litSampled 2))).map fun s =>
    (s.strobeState, s.effOut, s.ledOut[0], s.tickCount)) = some (.on, 200, 78, 2) := by decide
/-- Z13. -/
theorem test_hostWr_last_offset : ((goesTo (exec (.hostWr 9 255) (lit 0))).map (·.inFrame)) =
    some [(0, 200), (1, 10), (2, 100), (9, 255)] := by decide
/-- Z11. -/
theorem test_hostWr_past_frame : refusal (exec (.hostWr 10 0) (lit 0)) =
    some (.offsetOutOfFrame 0x400A0000 10) := by decide
/-- M4 and M2. -/
theorem test_fOffmap : ((goesTo (exec (.fOffmap 10) (lit 0))).map (·.returned)) = some [.offTicks 192] ∧
    offMap 1 = 199 := by decide
/-- N13 and N14, which tell the formula from the other reading of 90_conflicts.md C1. -/
theorem test_fNext_slowest : ((goesTo (exec (.fNext .off true 200 99 1) (lit 0))).map (·.returned)) =
    some [.transition ⟨.on, 99, true⟩] ∧ transition .off true 199 99 1 = ⟨.off, 0, false⟩ := by decide
/-- N1, N2, N7 and N9. -/
theorem test_fNext_rows : transition .on true 3 200 10 = ⟨.on, 200, false⟩ ∧
    transition .on true 4 200 10 = ⟨.off, 0, true⟩ ∧ transition .off false 200 200 10 = ⟨.on, 200, true⟩ ∧
    transition .off true 77 123 0 = ⟨.on, 123, false⟩ := by decide
/-- S8: an 8-bit product would wrap. -/
theorem test_fScale : ((goesTo (exec (.fScale 254 254) (lit 0))).map (·.returned)) =
    some [.scaled 253] := by decide

/-! ## The schedule, the assembler, the ports and the marks -/

/-- The row's word is what the very next step runs. -/
theorem test_fetch_word : goesTo (step (State.reset.withFetchWord 32 0x10000000)) =
    some { State.reset with tickCount := 1 } := by decide
theorem test_empty_schedule : refusal (step State.reset) = some .scheduleEnded := by decide
/-- Z14. -/
theorem test_assembler_width : assemble "F_SCALE 256, 1" = .error (.operandWidth "F_SCALE 256, 1") := by decide
/-- N2, written with the name of the state and a comment, and an ITERATE. -/
theorem test_assembler_text : assemble "F_NEXT ON, 1, 0x4, 200, 10 ; ends\nITERATE" =
    .ok [0x9304C80A, 0x20000000, 0x30000000] := by decide
/-- The DRIVE line of program P1. -/
theorem test_assembler_drive : assemble "DRIVE 200, 0, 255, 128, 100, 0, 1, 254, 50, 10" =
    .ok [0x400000C8, 0x40010000, 0x400200FF, 0x40030080, 0x40040064, 0x40050000, 0x40060001, 0x400700FE,
      0x40080032, 0x4009000A] := by decide
/-- R53: a line that fails in several ways; the order of the checks is log entry 10. -/
theorem test_assembler_order : lineOf "DRIVE" [.num 256, .num 0] = .error .malformed ∧
    lineOf "F_SCALE" [.num 256, .state .on] = .error .operandWidth ∧
    lineOf "F_SCALE" [.state .on, .num 256] = .error .malformed ∧
    assemble "HOST_WR 1024, zz" = .error (.malformedLine "HOST_WR 1024, zz") := by decide
/-- Z18: the fault is reached by a step. -/
theorem test_unwritten_read : (match step { State.reset with schedule := [.read .obsEff] } with
    | .fault f => decide (f = .unwrittenOutput .obsEff) | _ => false) = true := by decide
/-- X2: `faulted` stays through an RST. -/
theorem test_rst_keeps_fault : (afterEvent { State.reset with
    faulted := some (.unwrittenOutput .obsEff), schedule := [.word 0x00000000] }).faulted =
      some (.unwrittenOutput .obsEff) := by decide

/-! ## Witnesses: a state and operands that meet the hypotheses of each statement -/

theorem witness_DecodeOfEncodeGivesTheOperation : (Instr.hostWr 9 255).wf = true := by decide
theorem witness_AcceptedWordIsTheOperationsWord : decode 0x93FFFFFF = .ok (.fNext .on true 255 255 255) := by decide
theorem witness_EveryWord_reserved_codes : reservedCode 0x5FFFFFFF ∧ reservedCode 0xB0000000 := by
  unfold reservedCode; decide
theorem witness_EveryWord_reserved_bits : ¬ reservedCode 0x4C0A0000 ∧ reservedBitSet 0x4C0A0000 := by
  unfold reservedCode reservedBitSet; decide
theorem witness_EveryWord_offset :
    ¬ reservedCode 0x400A0000 ∧ ¬ reservedBitSet 0x400A0000 ∧ offsetPastFrame 0x400A0000 := by
  unfold reservedCode reservedBitSet offsetPastFrame; decide
theorem witness_EveryWord_accepted :
    ¬ reservedCode 0x400900FF ∧ ¬ reservedBitSet 0x400900FF ∧ ¬ offsetPastFrame 0x400900FF := by
  unfold reservedCode reservedBitSet offsetPastFrame; decide
theorem witness_StepPerformsTheDecodedOperation :
    (State.reset.withFetchWord 32 0x10000000).faulted = none ∧
    (State.reset.withFetchWord 32 0x10000000).schedule = [.word 0x10000000] ∧ decode 0x10000000 = .ok .tick := by
  decide
theorem witness_StepRefusesAnUndecodableWord : decode 0x50000000 = .error .reservedOp ∧
    decode 0x10000001 = .error .reservedBits ∧ decode 0x400A0000 = .error (.offsetOutOfFrame 10) ∧
    (State.reset.withFetchWord 32 0x50000000).faulted = none ∧
    (State.reset.withFetchWord 32 0x50000000).schedule = [.word 0x50000000] := by decide
theorem witness_StepPerformsThePortRead : ({ State.reset with schedule := [.read .obsTicks] } : State).faulted = none ∧
    ({ State.reset with schedule := [.read .obsTicks] } : State).schedule = [.read .obsTicks] := by decide
theorem witness_ScheduleRunsItsOperationsInOrder : (∀ i ∈ [Instr.tick, Instr.hostWr 9 1], i.wf = true) ∧
    ({ State.reset with schedule := [.word 0x10000000, .word 0x40090001] } : State).schedule =
      ([Instr.tick, Instr.hostWr 9 1].map fun i => Event.word (encode i)) ++ [] := by decide
theorem witness_FaultedStateHasNoFurtherSteps :
    goesTo (exec .tick (raiseFault (.unwrittenOutput .obsEff) State.reset)) =
      some { raiseFault (.unwrittenOutput .obsEff) State.reset with tickCount := 1 } := by decide
theorem witness_MarksOnceSetAreNeverCleared :
    (raiseFault (.unwrittenOutput .obsEff) State.reset).faulted ≠ none ∧
    (refuse (.reservedOp 0x50000000) State.reset).refused ≠ none := by decide
theorem witness_RefusedWordSetsOnlyItsMark :
    refusal (step (State.reset.withFetchWord 32 0x30000000)) = some (.phaseOrder 0x30000000 .ready) ∧
    (State.reset.withFetchWord 32 0x30000000).faulted = none ∧
    (State.reset.withFetchWord 32 0x30000000).schedule = [.word 0x30000000] := by decide
theorem witness_OutOfPhaseOperationsAreRefused : (litSampled 4).phase = .sampled ∧ (lit 4).phase = .ready := by decide
theorem witness_UnwrittenOutputReadsFault : Instr.commit ∉ [Instr.tick, Instr.sample] ∧
    (goesTo (runInstrs [.rst, .tick, .sample] (litSampled 4))).isSome = true ∧
    (goesTo (runInstrs [.tick, .sample] State.reset)).isSome = true ∧
    (∃ i, Port.ledOut 7 = Port.ledOut i) := ⟨by decide, by decide, by decide, 7, rfl⟩
theorem witness_PortsReadTheirRegisters : State.reset.strobeState = .off ∧ (lit 0).strobeState = .on ∧
    State.reset.phase = .ready ∧ (litSampled 0).phase = .sampled ∧
    (goesTo (exec .commit (litSampled 0))).map (·.outputsWritten) = some true ∧ Instr.rst ∉ [Instr.tick] ∧
    (goesTo (runInstrs [.commit, .tick] (litSampled 0))).isSome = true := by decide
theorem witness_FirstIterationAfterRstIsLit : Instr.commit ∉ [Instr.sample] ∧
    (goesTo (runInstrs [.rst, .sample] (lit 9))).map (fun s => (s.phase, decide (s.snapSpeed ≠ 0))) =
      some (.sampled, true) := by decide
theorem witness_ResetTickAndStateReachNoOutput :
    SameOutputs State.reset { State.reset with tickCount := 255, strobeState := .on } ∧
    (goesTo (runInstrs [.sample, .commit] State.reset)).isSome = true :=
  ⟨⟨rfl, fun h => Bool.noConfusion h⟩, by decide⟩
theorem witness_OnlyTickCommitAndRstWriteTheCounter :
    (goesTo (exec .commit (litSampled 4))).map (fun t => decide (t.tickCount ≠ (litSampled 4).tickCount)) =
      some true := by decide
theorem witness_TicksInsideAnIterationAreLostOrKept : (lit 4).phase = .ready := by decide
theorem witness_SimultaneousEvents : (litSampled 4).phase = .sampled ∧
    (transition .on true 4 200 10).rr = true ∧ (lit 4).phase = .ready ∧ Memory.wf (lit 4).inFrame = true := by decide
theorem witness_OffMapRange : (1 : Byte) ≠ 0 ∧ (255 : Byte) ≠ 0 := by decide
theorem witness_OffMapFallsByAtMostOne : (254 : Byte).toNat < 255 ∧ (0 : Byte).toNat ≤ (255 : Byte).toNat := by decide
theorem witness_SampleLatchesFrameAndCounter : (lit 4).phase = .ready ∧ (litSampled 4).phase = .sampled := by decide
/-- An input at the edge of each row of R74. -/
theorem witness_TransitionIsTheDecisionTable :
    (tableRow 0).applies .off true 255 0 ∧ (tableRow 1).applies .off false 255 1 ∧
    (tableRow 2).applies .on true 4 1 ∧ (tableRow 3).applies .on true 3 1 ∧
    (tableRow 4).applies .off true 200 1 ∧ (tableRow 5).applies .off true 199 1 ∧
    (goesTo (exec .commit (litSampled 4))).isSome = true ∧ (tableRow 2).applies .on true 4 10 := by
  simp only [tableRow]; decide
theorem witness_EffIsMasterOrZero : (transition .on true 4 200 10).ns = .off ∧
    (transition .on true 3 200 10).ns = .on := by decide
theorem witness_CommitWritesTheIteration : (litSampled 4).phase = .sampled ∧ (lit 4).phase = .ready := by decide
theorem witness_WasActiveRemembersTheLastCommit : Instr.commit ∉ [Instr.tick, Instr.sample] ∧
    Instr.rst ∉ [Instr.tick, Instr.sample] ∧
    (goesTo (runInstrs [.commit, .tick, .sample] (litSampled 4))).isSome = true ∧
    (goesTo (runInstrs [.rst, .tick, .sample] (litSampled 4))).isSome = true := by decide
theorem witness_LitPhaseIsIdempotent : (litSampled 3).strobeState = .on ∧ (litSampled 3).wasActive = true ∧
    Instr.rst ∉ [Instr.commit] ∧
    commitsFind (fun u => u.snapSpeed ≠ 0 ∧ u.snapTicks.toNat < 4) [.commit] (litSampled 3) :=
  ⟨by decide, by decide, by decide, fun _ => by decide, fun _ _ => trivial⟩
theorem witness_FlashIsFourTicksLitAndOffPlusOneDark : (lit 0).phase = .ready ∧ (lit 0).wasActive = true ∧
    (lit 0).strobeState = .on ∧ (lit 0).tickCount = 0 ∧ Memory.read (lit 0).inFrame 1 ≠ 0 := by decide
/-- Three ticks lit, four ticks dark, for one iteration after each. -/
theorem witness_Flash_rounds :
    (goesTo (runInstrs (tickRounds [0, 0, 0]) (lit 0))).map (·.strobeState) = some .on ∧
    (goesTo (runInstrs (tickRounds [0, 0, 0, 0]) (lit 0))).map (·.strobeState) = some .off := by decide
theorem witness_ScaleIsBoundedAndMonotone : (254 : Byte) ≤ 255 := by decide
theorem witness_LanesAreIndependent : (goesTo (exec .commit (litSampled 2))).map (·.effOut) =
    (goesTo (exec .commit (litSampled 3))).map (·.effOut) ∧
    (litSampled 2).snapLed[0] = (litSampled 3).snapLed[0] ∧
    (goesTo (exec .commit (litSampled 2))).isSome = true ∧ (goesTo (exec .commit (litSampled 3))).isSome = true := by
  decide
theorem witness_HostWriteStoresOneByte : (9 : BitVec 10).toNat ≤ 9 ∧ Memory.wf (lit 0).inFrame = true ∧
    9 < (10 : BitVec 10).toNat := by decide
theorem witness_OnlyTheHostWritesTheFrame : (goesTo (exec .sample (lit 0))).isSome = true ∧
    performer .sample ≠ .host := by decide
theorem witness_RegistersHaveTheirOneWriter : (goesTo (exec .tick (lit 0))).isSome = true ∧
    Instr.tick ≠ .rst ∧ Instr.tick ≠ .commit ∧ Instr.tick ≠ .sample := by decide
theorem witness_SampleAndCommitAlternate : (goesTo (exec .sample (lit 0))).isSome = true ∧
    (goesTo (exec .commit (litSampled 0))).isSome = true := by decide
theorem witness_UnitCallsChangeNoBlockState : performer (.fOffmap 0) = .unitTest ∧
    performer (.fNext .off false 0 0 0) = .unitTest ∧ performer (.fScale 255 255) = .unitTest := by decide
theorem witness_StepKeepsTheInvariant : BlockInv (State.reset.withFetchWord 32 0x10000000) ∧
    (goesTo (step (State.reset.withFetchWord 32 0x10000000))).isSome = true :=
  ⟨⟨rfl, rfl, fun _ => ⟨rfl, rfl⟩, fun h => Bool.noConfusion h, fun h => Bool.noConfusion h,
    fun h => Bool.noConfusion h⟩, by decide⟩

/-! ## A fair run: TICK, SAMPLE, COMMIT for ever, with the speed byte at 1 -/

/-- The operation at each position of the run. -/
def cycleInstr (n : Nat) : Instr := if n % 3 = 0 then .tick else if n % 3 = 1 then .sample else .commit

/-- The state at each position of the run. -/
def cycleState : Nat → State
  | 0 => { State.reset with inFrame := [(1, 1)] }
  | n + 1 => (goesTo (exec (cycleInstr n) (cycleState n))).getD (cycleState n)

/-- What holds at every position of the run. -/
def CycleAt (n : Nat) (s : State) : Prop :=
  s.inFrame = [(1, 1)] ∧ s.phase = if n % 3 = 2 then .sampled else .ready

theorem cycle_next (n : Nat) (s : State) (h : CycleAt n s) :
    ∃ t, exec (cycleInstr n) s = .next t ∧ CycleAt (n + 1) t := by
  obtain ⟨hf, hp⟩ := h
  by_cases h0 : n % 3 = 0
  · have h1 : ¬ (n + 1) % 3 = 2 := by omega
    rw [if_neg (by omega)] at hp
    refine ⟨s.withTick (s.tickCount + 1), by rw [cycleInstr, if_pos h0, exec_tick], hf, ?_⟩
    rw [if_neg h1]; exact hp
  · by_cases h1 : n % 3 = 1
    · rw [if_neg (by omega)] at hp
      have hi : cycleInstr n = .sample := by rw [cycleInstr, if_neg h0, if_pos h1]
      have h2 : (n + 1) % 3 = 2 := by omega
      refine ⟨_, hi ▸ exec_sample_ready s hp, ?_⟩
      exact ⟨hf, by rw [if_pos h2]; rfl⟩
    · rw [if_pos (by omega)] at hp
      have hi : cycleInstr n = .commit := by rw [cycleInstr, if_neg h0, if_neg h1]
      have h2 : ¬ (n + 1) % 3 = 2 := by omega
      refine ⟨_, hi ▸ exec_commit_sampled s hp, ?_⟩
      rw [commitWrites_eq]
      exact ⟨hf, by rw [if_neg h2]⟩

theorem cycle_at (n : Nat) : CycleAt n (cycleState n) := by
  induction n with
  | zero => exact ⟨rfl, rfl⟩
  | succ n ih =>
    obtain ⟨t, ht, hc⟩ := cycle_next n _ ih
    rw [cycleState, ht]
    exact hc

/-- The run. -/
def cycleRun : Run where
  instr := cycleInstr
  state := cycleState
  follows n := by
    obtain ⟨t, ht, -⟩ := cycle_next n _ (cycle_at n)
    rw [cycleState, ht]
    rfl

theorem cycleInstr_tick (n : Nat) (h : cycleInstr n = .tick) : n % 3 = 0 := by
  by_contra h0
  rw [cycleInstr, if_neg h0] at h
  split at h <;> cases h

theorem cycleInstr_mod (n k : Nat) (h : n % 3 = k) : cycleInstr n = cycleInstr k := by
  subst h
  simp [cycleInstr]

theorem witness_EveryPhaseOfTheStrobeEnds :
    cycleRun.tickFair ∧ cycleRun.loopFair ∧ cycleRun.noReset ∧ cycleRun.samplesEveryTick ∧
    (∀ n, Memory.read (cycleRun.state n).inFrame 1 ≠ 0) := by
  refine ⟨fun n => ⟨3 * n, by omega, cycleInstr_mod _ 0 (by omega)⟩,
    fun n => ⟨3 * n + 1, by omega, ?_⟩, fun n h => ?_, ⟨fun a b hab ha hb => ?_, fun n h => ?_⟩, fun n => ?_⟩
  · show performer (cycleInstr (3 * n + 1)) = .loop
    rw [cycleInstr_mod _ 1 (by omega)]
    rfl
  · have h' : cycleInstr n = .rst := h
    rw [cycleInstr] at h'
    split at h'
    · cases h'
    · split at h' <;> cases h'
  · have h1 := cycleInstr_tick a ha
    have h2 := cycleInstr_tick b hb
    exact ⟨a + 1, by omega, by omega, cycleInstr_mod _ 1 (by omega)⟩
  · have h1 := cycleInstr_tick n h
    have h2 := (cycle_at n).2
    rw [if_neg (by omega)] at h2
    exact h2
  · show Memory.read (cycleState n).inFrame 1 ≠ 0
    rw [(cycle_at n).1]
    decide

theorem witness_FairLoopIteratesForEver : cycleRun.loopFair ∧ cycleRun.noReset :=
  ⟨witness_EveryPhaseOfTheStrobeEnds.2.1, witness_EveryPhaseOfTheStrobeEnds.2.2.1⟩

end Sys2Proof.Tests
end

section
/-! PROOFS. The marks `faulted` and `refused` (R21) and the alternation of SAMPLE and COMMIT (R18),
spec/10_state.md. -/

namespace Sys2Proof.Machine

/-! ## An outcome that takes its step changes no mark -/

/-- R21: two states with the same marks. -/
def SameMarks (s t : State) : Prop := t.faulted = s.faulted ∧ t.refused = s.refused

/-- R76 names no mark among what COMMIT writes. -/
theorem commitWrites_sameMarks (s : State) : SameMarks s (commitWrites s) := by
  rw [commitWrites_eq]
  exact ⟨rfl, rfl⟩

/-- No operation that takes its step changes a mark; RST carries both over. -/
theorem exec_sameMarks (i : Instr) (s t : State) (h : exec i s = .next t) : SameMarks s t := by
  obtain ⟨-, rfl⟩ | ⟨-, rfl⟩ | ⟨-, -, rfl⟩ | ⟨-, -, rfl⟩ | ⟨k, v, -, -, rfl⟩ | ⟨r, rfl, -⟩ := exec_cases i s t h
  · exact ⟨rfl, rfl⟩
  · exact ⟨rfl, rfl⟩
  · exact ⟨rfl, rfl⟩
  · exact commitWrites_sameMarks s
  · exact ⟨rfl, rfl⟩
  · exact ⟨rfl, rfl⟩

/-- No step that is taken changes a mark, whether its event is a word or a port read. -/
theorem step_sameMarks (s t : State) (h : step s = .next t) : SameMarks s t := by
  obtain ⟨-, e, rest, -, ⟨w, i, -, -, hexec⟩ | ⟨p, v, -, -, rfl⟩⟩ := step_cases s t h
  · exact exec_sameMarks i (s.withSchedule rest) t hexec
  · exact ⟨rfl, rfl⟩

/-! ## What an event leaves behind, by the head of the schedule -/

/-- R86: a faulted state stays as it is. -/
theorem afterEvent_of_faulted (s : State) (h : s.faulted ≠ none) : afterEvent s = s := by
  obtain ⟨f, hf⟩ := Option.ne_none_iff_exists'.mp h
  simp [afterEvent, hf]

/-- R102: so does a state at the end of its schedule. -/
theorem afterEvent_of_schedule_nil (s : State) (h : s.schedule = []) : afterEvent s = s := by
  cases hf : s.faulted <;> simp [afterEvent, hf, h]

/-- R86, R87: otherwise the head of the schedule is past and the outcome of the step is settled. -/
theorem afterEvent_of_schedule_cons (s : State) (e : Event) (rest : List Event) (hf : s.faulted = none)
    (h : s.schedule = e :: rest) : afterEvent s = settle (s.withSchedule rest) (step s) := by
  simp [afterEvent, hf, h]

/-- R86: a faulted state has no further steps, however many events are to come. -/
theorem afterEvents_of_faulted (n : Nat) (s : State) (h : s.faulted ≠ none) : afterEvents n s = s := by
  induction n with
  | zero => rfl
  | succ n ih => rw [afterEvents, afterEvent_of_faulted s h, ih]

/-! ## The mark `refused` -/

/-- Settling an outcome keeps `refused` set: a step carries it over, a fault leaves it, and a refusal sets it. -/
theorem settle_keeps_refused (s : State) (rest : List Event) (h : s.refused ≠ none) :
    (settle (s.withSchedule rest) (step s)).refused ≠ none := by
  cases ho : step s with
  | next t =>
    obtain ⟨-, hrefused⟩ := step_sameMarks s t ho
    simpa [settle, hrefused] using h
  | fault f => simpa [settle] using h
  | refused r => simp [settle]

theorem afterEvent_keeps_refused (s : State) (h : s.refused ≠ none) : (afterEvent s).refused ≠ none := by
  by_cases hf : s.faulted = none
  · cases hs : s.schedule with
    | nil => rwa [afterEvent_of_schedule_nil s hs]
    | cons e rest =>
      rw [afterEvent_of_schedule_cons s e rest hf hs]
      exact settle_keeps_refused s rest h
  · rwa [afterEvent_of_faulted s hf]

theorem afterEvents_keeps_refused (n : Nat) (s : State) (h : s.refused ≠ none) :
    (afterEvents n s).refused ≠ none := by
  induction n generalizing s with
  | zero => exact h
  | succ n ih => exact ih (afterEvent s) (afterEvent_keeps_refused s h)

/-- Settles O12: a faulted state has no further steps, and every kind of event keeps `refused` set. -/
theorem marksOnceSetAreNeverCleared : Obligations.MarksOnceSetAreNeverCleared := by
  refine ⟨rfl, rfl, fun n s => ⟨fun hf => ?_, afterEvents_keeps_refused n s⟩⟩
  rwa [afterEvents_of_faulted n s hf]

/-! ## SAMPLE and COMMIT -/

/-- What SAMPLE needs and where it leaves the phase (R18). -/
theorem exec_sample_phases (s t : State) (h : exec .sample s = .next t) :
    s.phase = .ready ∧ t.phase = .sampled := by
  cases hp : s.phase with
  | ready =>
    rw [exec_sample_ready s hp] at h
    cases h
    exact ⟨rfl, rfl⟩
  | sampled => rw [exec_sample_sampled s hp] at h; cases h

/-- What COMMIT needs and where it leaves the phase (R18). -/
theorem exec_commit_phases (s t : State) (h : exec .commit s = .next t) :
    s.phase = .sampled ∧ t.phase = .ready := by
  cases hp : s.phase with
  | ready => rw [exec_commit_ready s hp] at h; cases h
  | sampled =>
    rw [exec_commit_sampled s hp, commitWrites_eq] at h
    cases h
    exact ⟨rfl, rfl⟩

theorem takesStep_sample_iff (s : State) : takesStep (exec .sample s) ↔ s.phase = .ready :=
  ⟨fun ⟨t, h⟩ => (exec_sample_phases s t h).1, fun hp => ⟨_, exec_sample_ready s hp⟩⟩

theorem takesStep_commit_iff (s : State) : takesStep (exec .commit s) ↔ s.phase = .sampled :=
  ⟨fun ⟨t, h⟩ => (exec_commit_phases s t h).1, fun hp => ⟨_, exec_commit_sampled s hp⟩⟩

/-- Settles O45: each of the two operations is enabled in one phase and leaves the other. -/
theorem sampleAndCommitAlternate : Obligations.SampleAndCommitAlternate :=
  ⟨rfl, fun s =>
    ⟨takesStep_sample_iff s, fun t h => (exec_sample_phases s t h).2,
      takesStep_commit_iff s, fun t h => (exec_commit_phases s t h).2⟩⟩

end Sys2Proof.Machine
end

section
/-! PROOFS. The decoder is the checks of R49, R48 and R50 in the order of R51, and the pseudo-operations are
their expansions (R54), spec/30_encoding.md. -/

namespace Sys2Proof.Machine

/-! ## The fields of a word as numbers -/

/-- R44: the operation code is the top four bits. -/
theorem opField_toNat (w : Word) : (opField w).toNat = w.toNat / 2 ^ 28 := by
  rw [opField, bitsAt_toNat]
  omega

theorem bitsAt_eq_zero_iff (w : Word) (lo len : Nat) :
    bitsAt w lo len = 0#len ↔ w.toNat / 2 ^ lo % 2 ^ len = 0 := by
  rw [← bitsAt_toNat, ← BitVec.toNat_inj, BitVec.toNat_zero]

/-- A word is its code and what stands below bit 28. -/
theorem wordOf_eq (w : Word) (op : OpCode) (n : Nat) (hop : opField w = op.bits) (hn : w.toNat % 2 ^ 28 = n) :
    wordOf op n = w := by
  have hcode := opField_toNat w
  rw [hop] at hcode
  apply BitVec.eq_of_toNat_eq
  rw [wordOf_toNat op n (by omega)]
  omega

/-! ## The three checks, in the order of R51 -/

/-- R49: the reserved codes are those that name no operation. -/
theorem reservedCode_iff (w : Word) : reservedCode w ↔ opOf (opField w) = none := by
  rw [opOf_eq_none_iff, opField_toNat, reservedCode]

theorem exists_op_of_not_reservedCode (w : Word) (h : ¬ reservedCode w) : ∃ op : OpCode, opField w = op.bits := by
  rw [reservedCode_iff] at h
  obtain ⟨op, hop⟩ := Option.ne_none_iff_exists'.mp h
  exact ⟨op, opOf_eq_some _ _ hop⟩

/-- R48: under a defined code, a reserved bit is set exactly when the decoder's check fails. -/
theorem reservedBitSet_iff (w : Word) (op : OpCode) (hop : opField w = op.bits) :
    reservedBitSet w ↔ ¬ op.reservedZero w = true := by
  rw [reservedBitSet, ← opField_toNat, hop]
  cases op <;> simp [OpCode.reservedZero, OpCode.bits, bitsAt_eq_zero_iff, imp_iff_not_or]

/-- R50: the field `k` is the one the statement writes out. -/
theorem kField_eq (w : Word) : kField w = BitVec.ofNat 10 (w.toNat / 2 ^ 16) := by
  apply BitVec.eq_of_toNat_eq
  rw [kField, bitsAt_toNat, BitVec.toNat_ofNat]

/-- R50: the only code under which an offset can lie past the frame is that of HOST_WR. -/
theorem offsetPastFrame_iff (w : Word) :
    offsetPastFrame w ↔ opField w = OpCode.hostWr.bits ∧ ¬ (kField w).toNat ≤ lastOffset := by
  rw [offsetPastFrame, ← BitVec.toNat_inj, opField_toNat, kField, bitsAt_toNat, Nat.not_le]
  rfl

theorem decode_of_reservedCode (w : Word) (h : reservedCode w) : decode w = .error .reservedOp := by
  rw [decode, (reservedCode_iff w).mp h]

theorem decode_of_reservedBitSet (w : Word) (hc : ¬ reservedCode w) (hb : reservedBitSet w) :
    decode w = .error .reservedBits := by
  obtain ⟨op, hop⟩ := exists_op_of_not_reservedCode w hc
  rw [decode_of_op w op hop, if_neg ((reservedBitSet_iff w op hop).mp hb)]

/-- Past the first two checks the decoder reads the fields of the operation the code names. -/
theorem decode_eq_decodeFields (w : Word) (op : OpCode) (hop : opField w = op.bits) (hb : ¬ reservedBitSet w) :
    decode w = decodeFields op w := by
  rw [reservedBitSet_iff w op hop, not_not] at hb
  rw [decode_of_op w op hop, if_pos hb]

theorem decode_of_offsetPastFrame (w : Word) (hb : ¬ reservedBitSet w) (ho : offsetPastFrame w) :
    decode w = .error (.offsetOutOfFrame (kField w)) := by
  obtain ⟨hop, hk⟩ := (offsetPastFrame_iff w).mp ho
  rw [decode_eq_decodeFields w .hostWr hop hb, decodeFields, if_neg hk]

/-- The check of the offset is the only one that reading the fields can fail. -/
theorem decodeFields_ok (op : OpCode) (w : Word) (hop : opField w = op.bits) (ho : ¬ offsetPastFrame w) :
    ∃ i, decodeFields op w = .ok i := by
  cases op with
  | hostWr =>
    rw [offsetPastFrame_iff, not_and_not_right] at ho
    exact ⟨_, if_pos (ho hop)⟩
  | _ => exact ⟨_, rfl⟩

theorem decode_ok_of_checks (w : Word) (hc : ¬ reservedCode w) (hb : ¬ reservedBitSet w)
    (ho : ¬ offsetPastFrame w) : ∃ i, decode w = .ok i := by
  obtain ⟨op, hop⟩ := exists_op_of_not_reservedCode w hc
  rw [decode_eq_decodeFields w op hop hb]
  exact decodeFields_ok op w hop ho

/-! ## The word of the operation that was read -/

theorem sField_bit (w : Word) : (sField w).bit = bitsAt w 25 1 := by
  rw [sField]
  generalize bitsAt w 25 1 = b
  revert b
  decide

theorem aField_toNat (w : Word) : (aField w).toNat = (bitsAt w 24 1).toNat := by
  rw [aField]
  generalize bitsAt w 24 1 = b
  revert b
  decide

/-- R46: with the reserved bits zero, the fields are all there is below bit 28, so the word is the operation's. -/
theorem encode_of_decodeFields (op : OpCode) (w : Word) (i : Instr) (hop : opField w = op.bits)
    (hr : op.reservedZero w = true) (h : decodeFields op w = .ok i) : encode i = w := by
  cases op <;> simp only [OpCode.reservedZero, Bool.and_eq_true, beq_iff_eq, BitVec.ofNat_eq_ofNat,
    bitsAt_eq_zero_iff] at hr
  case rst | tick | sample | commit =>
    cases h
    exact wordOf_eq w _ 0 hop (by omega)
  case hostWr =>
    obtain ⟨hhigh, hmid⟩ := hr
    rw [decodeFields] at h
    split at h
    · cases h
      refine wordOf_eq w .hostWr _ hop ?_
      simp only [kField, lowField, bitsAt_toNat]
      omega
    · cases h
  all_goals
    cases h
    refine wordOf_eq w _ _ hop ?_
    simp only [lowField, midField, tField, sField_bit, aField_toNat, bitsAt_toNat]
    omega

/-- R51: an accepted word is the word of the operation it decodes to. -/
theorem encode_of_decode_ok (w : Word) (i : Instr) (h : decode w = .ok i) : encode i = w := by
  obtain ⟨op, hop, hr, hf⟩ := decode_ok_inv w i h
  exact encode_of_decodeFields op w i hop hr hf

/-! ## Performing a word -/

theorem performWord_of_ok (w : Word) (i : Instr) (s : State) (h : decode w = .ok i) :
    performWord w s = exec i s := by
  rw [performWord, h]

theorem performWord_of_error (w : Word) (e : DecodeError) (s : State) (h : decode w = .error e) :
    performWord w s = .refused (decodeRefusal w e) := by
  rw [performWord, h]

/-- Settles O3: each check that fails first names the decoder's answer, and past them all the word is the
encoding of what was read. -/
theorem everyWordIsOneOperationOrOneRefusal : Obligations.EveryWordIsOneOperationOrOneRefusal := by
  refine fun w s => ⟨fun hc => ?_, fun hc hb => ?_, fun _ hb ho => ?_, fun hc hb ho => ?_⟩
  · exact performWord_of_error w _ s (decode_of_reservedCode w hc)
  · exact performWord_of_error w _ s (decode_of_reservedBitSet w hc hb)
  · rw [← kField_eq]
    exact performWord_of_error w _ s (decode_of_offsetPastFrame w hb ho)
  · obtain ⟨i, hi⟩ := decode_ok_of_checks w hc hb ho
    exact ⟨i, hi, encode_of_decode_ok w i hi, performWord_of_ok w i s hi⟩

/-! ## The pseudo-operations (R54) -/

theorem lineOf_setM (v : Byte) : lineOf "SETM" [.num v.toNat] = .ok (.pseudo (.setM v)) := by
  simp only [lineOf, fieldOf_toNat]
  rfl

theorem lineOf_setS (v : Byte) : lineOf "SETS" [.num v.toNat] = .ok (.pseudo (.setS v)) := by
  simp only [lineOf, fieldOf_toNat]
  rfl

theorem lineOf_setL (i : Fin Config.nLed) (v : Byte) :
    lineOf "SETL" [.num i.val, .num v.toNat] = .ok (.pseudo (.setL i v)) := by
  simp only [lineOf, ledOf_num, fieldOf_toNat]
  rfl

/-- Values written as numbers read back as the values. -/
theorem mapM_fieldOf_toNat (w : Nat) (vs : List (BitVec w)) :
    (vs.map fun v => Operand.num v.toNat).mapM (fieldOf w) = .ok vs := by
  induction vs with
  | nil => rfl
  | cons v vs ih =>
    rw [List.map_cons, List.mapM_cons, ih, fieldOf_toNat]
    rfl

theorem ledsOf_toNat (leds : Vector Byte Config.nLed) :
    ledsOf (leds.toList.map fun b => .num b.toNat) = .ok leds := by
  rw [ledsOf, mapM_fieldOf_toNat]
  exact congrArg Except.ok (Vector.ext fun i hi => by simp)

theorem lineOf_drive (m p : Byte) (leds : Vector Byte Config.nLed) :
    lineOf "DRIVE" ((m :: p :: leds.toList).map fun b => .num b.toNat) = .ok (.pseudo (.drive m p leds)) := by
  simp only [List.map_cons, lineOf, List.length_map, Vector.length_toList, if_true, fieldOf_toNat, ledsOf_toNat]
  rfl

/-- Settles O5: every line reads as its pseudo-operation, whose expansion computes to the list of R54. -/
theorem pseudoOperationsAreTheirExpansions : Obligations.PseudoOperationsAreTheirExpansions :=
  ⟨rfl, fun _ => rfl,
    fun v => congrArg (Except.map lineInstrs) (lineOf_setM v),
    fun v => congrArg (Except.map lineInstrs) (lineOf_setS v),
    fun i v => congrArg (Except.map lineInstrs) (lineOf_setL i v),
    fun m p l0 l1 l2 l3 l4 l5 l6 l7 =>
      congrArg (Except.map lineInstrs) (lineOf_drive m p #v[l0, l1, l2, l3, l4, l5, l6, l7])⟩

end Sys2Proof.Machine
end

section
/-! PROOFS. The tick counter: TICK adds one to it, and only COMMIT and RST set it to 0 (R55, R58),
spec/40_tick_counter.md. -/

namespace Sys2Proof.Machine

/-- R55: the counter's addition is addition modulo 256. -/
theorem byte_add_one_eq (t : Byte) : t + 1 = BitVec.ofNat 8 ((t.toNat + 1) % 256) := by
  apply BitVec.eq_of_toNat_eq
  simp

/-- Settles O21: the word decodes to TICK, whose meaning writes the counter alone. -/
theorem tickAddsOneModulo256 : Obligations.TickAddsOneModulo256 := by
  refine ⟨by decide, fun s => ?_⟩
  rw [exec_tick, byte_add_one_eq]
  rfl

/-- R76: COMMIT clears the counter when the transition asks for a tick reset, and else leaves it. -/
@[simp] theorem commitWrites_tickCount (s : State) :
    (commitWrites s).tickCount = if (commitTransition s).rr then 0 else s.tickCount := by
  rw [commitWrites_eq]

/-- R58: a COMMIT that changes the counter has cleared it. -/
theorem commitWrites_tickCount_of_ne (s : State) (hne : (commitWrites s).tickCount ≠ s.tickCount) :
    (commitWrites s).tickCount = 0 := by
  rw [commitWrites_tickCount] at hne ⊢
  cases hr : (commitTransition s).rr with
  | true => rfl
  | false => simp [hr] at hne

/-- Settles O22: of all an operation can do, the three named ones write the counter, and SAMPLE, HOST_WR and the
unit calls leave it. -/
theorem onlyTickCommitAndRstWriteTheCounter : Obligations.OnlyTickCommitAndRstWriteTheCounter := by
  intro i s t h hne
  obtain ⟨hi, rfl⟩ | ⟨hi, rfl⟩ | ⟨-, -, rfl⟩ | ⟨hi, -, rfl⟩ | ⟨k, v, -, -, rfl⟩ | ⟨r, rfl, -⟩ := exec_cases i s t h
  · exact .inr (.inr ⟨hi, rfl⟩)
  · exact .inl ⟨hi, rfl⟩
  · exact absurd rfl hne
  · exact .inr (.inl ⟨hi, commitWrites_tickCount_of_ne s hne⟩)
  · exact absurd rfl hne
  · exact absurd rfl hne

end Sys2Proof.Machine
end

section
/-! PROOFS. The strobe rate mapper falls by at most one tick per unit of speed (R63), and 16 bits hold all of its
computation (R65), spec/41_strobe_rate_mapper.md. -/

namespace Sys2Proof.Machine

/-- R63: a faster speed never has a longer threshold, since its numerator is no larger. -/
theorem offMap_toNat_antitone {p q : Byte} (hpq : p.toNat ≤ q.toNat) : (offMap q).toNat ≤ (offMap p).toNat := by
  rw [offMap_toNat, offMap_toNat]
  exact Nat.div_le_div_right (Nat.sub_le_sub_left (Nat.mul_le_mul_right 190 hpq) 51000)

/-- R63: a unit of speed takes 190 off the numerator, which is less than the 255 of one tick. -/
theorem offMap_toNat_le_add_sub {p q : Byte} (hpq : p.toNat ≤ q.toNat) :
    (offMap p).toNat ≤ (offMap q).toNat + (q.toNat - p.toNat) := by
  have hq := q.isLt
  have hnum : 51000 - p.toNat * 190 ≤ 51000 - q.toNat * 190 + (q.toNat - p.toNat) * 255 := by omega
  calc (offMap p).toNat
      = (51000 - p.toNat * 190) / 255 := offMap_toNat p
    _ ≤ (51000 - q.toNat * 190 + (q.toNat - p.toNat) * 255) / 255 := Nat.div_le_div_right hnum
    _ = (51000 - q.toNat * 190) / 255 + (q.toNat - p.toNat) := Nat.add_mul_div_right _ _ (by decide)
    _ = (offMap q).toNat + (q.toNat - p.toNat) := by rw [offMap_toNat q]

/-- Below 255 the next speed is one more: the byte's addition does not wrap. -/
theorem byte_add_one_toNat {p : Byte} (hp : p.toNat < 255) : (p + 1).toNat = p.toNat + 1 :=
  BitVec.toNat_add_of_lt (y := 1) (Nat.succ_lt_succ hp)

/-- Settles O27: the bounds hold between any two speeds, and neighbours are one unit apart. -/
theorem offMapFallsByAtMostOne : Obligations.OffMapFallsByAtMostOne := by
  refine ⟨fun p hp => ?_, fun p q hpq => ⟨offMap_toNat_antitone hpq, offMap_toNat_le_add_sub hpq⟩⟩
  have hnext := byte_add_one_toNat hp
  have hle : p.toNat ≤ (p + 1).toNat := by omega
  have hfall := offMap_toNat_le_add_sub hle
  rw [hnext, Nat.add_sub_cancel_left] at hfall
  exact ⟨offMap_toNat_antitone hle, hfall⟩

/-- Settles O28: the bounds follow from the product's, at most 48450, and the model's computation equals the
formula because neither the product nor the subtraction wraps. -/
theorem offMapFitsSixteenBits : Obligations.OffMapFitsSixteenBits := by
  refine ⟨by decide, by decide, fun p => ?_⟩
  have hprod : p.toNat * 190 ≤ 48450 := Nat.mul_le_mul_right 190 (Nat.le_of_lt_succ p.isLt)
  refine ⟨hprod, ?_, Nat.sub_le _ _, ?_, ?_, ?_, offMap_toNat p⟩ <;> omega

end Sys2Proof.Machine
end

section
/-! PROOFS. SAMPLE (R66), the decision table of the strobe (R73, R74) and its lit phase (R78),
spec/42_strobe_state_machine.md. -/

namespace Sys2Proof.Machine

/-! ## SAMPLE (R66) -/

/-- Settles O29: the offsets of the named ports are the frame's own, and the model's one update of the snapshot
and the phase is the statement's. -/
theorem sampleLatchesFrameAndCounter : Obligations.SampleLatchesFrameAndCounter :=
  ⟨by decide, exec_sample_ready, exec_sample_sampled⟩

/-! ## The decision table (R74) -/

/-- The row of R74 that an input falls in. -/
def rowOf (s : StrobeState) (a : Bool) (t p : Byte) : Fin 6 :=
  if p.toNat = 0 then 0
  else if a = false then 1
  else if s = .on then (if 4 ≤ t.toNat then 2 else 3)
  else if (51000 - 190 * p.toNat) / 255 < t.toNat then 4 else 5

theorem rowOf_edge (s : StrobeState) (t p : Byte) (hp : p.toNat ≠ 0) : rowOf s false t p = 1 := if_neg hp

theorem rowOf_lit (t p : Byte) (hp : p.toNat ≠ 0) :
    rowOf .on true t p = if 4 ≤ t.toNat then 2 else 3 := if_neg hp

theorem rowOf_dark (t p : Byte) (hp : p.toNat ≠ 0) :
    rowOf .off true t p = if (51000 - 190 * p.toNat) / 255 < t.toNat then 4 else 5 := if_neg hp

/-- An input matches the row it falls in and no other. -/
theorem tableRow_applies_iff (k : Fin 6) (s : StrobeState) (a : Bool) (t p : Byte) :
    (tableRow k).applies s a t p ↔ k = rowOf s a t p := by
  by_cases hp : p.toNat = 0
  · rw [rowOf, if_pos hp]
    fin_cases k <;> simp [tableRow, hp]
  · match a, s with
    | false, s =>
      rw [rowOf_edge s t p hp]
      fin_cases k <;> simp [tableRow, hp]
    | true, .on =>
      rw [rowOf_lit t p hp]
      have h3 : 4 ≤ t.toNat ↔ ¬ t.toNat ≤ 3 := Nat.not_le.symm
      by_cases ht : t.toNat ≤ 3
      · fin_cases k <;> simp [tableRow, hp, h3, ht]
      · fin_cases k <;> simp [tableRow, hp, h3, ht]
    | true, .off =>
      rw [rowOf_dark t p hp]
      by_cases ht : (51000 - 190 * p.toNat) / 255 < t.toNat
      · fin_cases k <;> simp [tableRow, hp, ht]
      · fin_cases k <;> simp [tableRow, hp, ht, Nat.not_lt.mp ht]

/-- The transition function gives the result of the row its input falls in. -/
theorem transition_eq_gives_rowOf (s : StrobeState) (a : Bool) (t m p : Byte) :
    transition s a t m p = (tableRow (rowOf s a t p)).gives m := by
  by_cases hp : p = 0
  · subst hp; rfl
  · have hp0 : p.toNat ≠ 0 := fun h => hp (BitVec.eq_of_toNat_eq h)
    match a, s with
    | false, s => rw [transition_edge s t m p hp, rowOf_edge s t p hp0]; rfl
    | true, .on => rw [transition_lit t m p hp, rowOf_lit t p hp0]; split <;> rfl
    | true, .off =>
      rw [transition_dark t m p hp, rowOf_dark t p hp0, offMap_toNat, Nat.mul_comm]
      split <;> rfl

/-- The column `was_active` of R74 says whether the speed is nonzero: only row T1 has speed 0. -/
theorem wasAfter_of_applies (k : Fin 6) (s : StrobeState) (a : Bool) (t p : Byte)
    (h : (tableRow k).applies s a t p) : (tableRow k).wasAfter = activeFlag p := by
  match k with
  | 0 =>
    have hp : p = 0 := BitVec.eq_of_toNat_eq h
    subst hp; rfl
  | 1 | 2 | 3 | 4 | 5 => exact (decide_eq_true (ne_of_apply_ne BitVec.toNat h.1)).symm

/-- Settles O31: matching a row is being in it, so exactly one row matches, and its result and its last column are
those of the transition function and of COMMIT. -/
theorem transitionIsTheDecisionTable : Obligations.TransitionIsTheDecisionTable := by
  refine ⟨fun s a t m p => ⟨?_, fun k hk => ?_⟩, fun s t k h hk => ?_⟩
  · exact ⟨rowOf s a t p, (tableRow_applies_iff _ s a t p).mpr rfl, fun k => (tableRow_applies_iff k s a t p).mp⟩
  · rw [(tableRow_applies_iff k s a t p).mp hk]
    exact transition_eq_gives_rowOf s a t m p
  · rw [exec_commit_sampled s (exec_commit_phases s t h).1, commitWrites_eq] at h
    cases h
    exact (wasAfter_of_applies k _ _ _ _ hk).symm

/-! ## The effective brightness (R73) -/

/-- Settles O32: the brightness of a result is fixed by its state, and there are two states. -/
theorem effIsMasterOrZero : Obligations.EffIsMasterOrZero := by
  intro s a t m p
  rw [transition_eff]
  cases (transition s a t m p).ns with
  | off => exact ⟨.inr rfl, fun _ => rfl, StrobeState.noConfusion⟩
  | on => exact ⟨.inl rfl, StrobeState.noConfusion, fun _ => rfl⟩

/-! ## The lit phase (R78) -/

/-- An invariant that every operation but RST keeps, where each COMMIT finds `P`, gives at each COMMIT what it
implies together with `P`. -/
theorem commitsFind_of_invariant {I P Q : State → Prop}
    (hkeep : ∀ i s t, i ≠ .rst → (i = .commit → P s) → I s → exec i s = .next t → I t)
    (hcommit : ∀ s, I s → P s → Q s) (is : List Instr) (s : State) (hrst : .rst ∉ is) (hI : I s)
    (hP : commitsFind P is s) : commitsFind Q is s := by
  induction is generalizing s with
  | nil => trivial
  | cons i is ih =>
    obtain ⟨hnow, hlater⟩ := hP
    rw [List.mem_cons, not_or] at hrst
    obtain ⟨hi, his⟩ := hrst
    exact ⟨fun hc => hcommit s hI (hnow hc),
      fun t ht => ih t his (hkeep i s t (Ne.symm hi) hnow hI ht) (hlater t ht)⟩

/-- R78: the strobe is active and ON. -/
def ActiveOn (s : State) : Prop := s.strobeState = .on ∧ s.wasActive = true

/-- R78: the latched speed is nonzero and the latched ticks are below `ON_TIME_TICKS`. -/
def LatchedInLitTime (s : State) : Prop := s.snapSpeed ≠ 0 ∧ s.snapTicks.toNat < 4

/-- R74, row T4: the flash goes on at the latched brightness, with no tick reset. -/
theorem commitTransition_of_activeOn (s : State) (hs : ActiveOn s) (hl : LatchedInLitTime s) :
    commitTransition s = ⟨.on, s.snapMaster, false⟩ := by
  obtain ⟨hstate, hwas⟩ := hs
  obtain ⟨hspeed, hticks⟩ := hl
  rw [commitTransition, hstate, hwas, transition_lit _ _ _ hspeed, if_neg (Nat.not_le.mpr hticks)]

/-- What such a COMMIT writes of the state, the flag, the brightness and the counter. -/
theorem commitWrites_of_activeOn (s : State) (hs : ActiveOn s) (hl : LatchedInLitTime s) :
    ActiveOn (commitWrites s) ∧ (commitWrites s).effOut = s.snapMaster ∧
      (commitWrites s).tickCount = s.tickCount := by
  rw [commitWrites_eq, commitTransition_of_activeOn s hs hl]
  exact ⟨⟨rfl, decide_eq_true hl.1⟩, rfl, rfl⟩

/-- No operation but RST ends an active ON state, if a COMMIT finds its ticks below 4. -/
theorem exec_keeps_activeOn (i : Instr) (s t : State) (hi : i ≠ .rst) (hl : i = .commit → LatchedInLitTime s)
    (hs : ActiveOn s) (h : exec i s = .next t) : ActiveOn t := by
  obtain ⟨hr, -⟩ | ⟨-, rfl⟩ | ⟨-, -, rfl⟩ | ⟨hc, -, rfl⟩ | ⟨k, v, -, -, rfl⟩ | ⟨r, rfl, -⟩ := exec_cases i s t h
  · exact absurd hr hi
  · exact hs
  · exact hs
  · exact (commitWrites_of_activeOn s hs (hl hc)).1
  · exact hs
  · exact hs

/-- Settles O35: ON and active is an invariant of the operations, and under it each COMMIT is row T4. -/
theorem litPhaseIsIdempotent : Obligations.LitPhaseIsIdempotent := by
  intro is s hon hwas hrst hfind
  refine commitsFind_of_invariant exec_keeps_activeOn (fun u hu hl hp => ?_) is s hrst ⟨hon, hwas⟩ hfind
  obtain ⟨⟨hstate, -⟩, heff, htick⟩ := commitWrites_of_activeOn u hu hl
  exact ⟨commitWrites u, exec_commit_sampled u hp, hstate, heff, htick⟩

end Sys2Proof.Machine
end

section
/-! PROOFS. The scaler treats its operands alike, so a bound or a monotonicity in one holds in the other (R83),
spec/43_brightness_scaler.md. -/

namespace Sys2Proof.Machine

/-- R80: the scaler divides a product, so its operands can be exchanged. -/
theorem scale_comm (r b : Byte) : scale r b = scale b r := by
  apply BitVec.eq_of_toNat_eq
  rw [scale_toNat, scale_toNat, Nat.mul_comm]

/-- R83: a brighter raw value is not scaled to a darker one. -/
theorem scale_mono_left {r r' : Byte} (b : Byte) (h : r ≤ r') : scale r b ≤ scale r' b := by
  rw [BitVec.le_def] at h ⊢
  rw [scale_toNat, scale_toNat]
  exact Nat.div_le_div_right (Nat.mul_le_mul_right b.toNat h)

/-- R83: at full brightness the division undoes the product. -/
theorem scale_full (r : Byte) : scale r 255 = r := by
  apply BitVec.eq_of_toNat_eq
  rw [scale_toNat]
  exact Nat.mul_div_cancel r.toNat (by decide)

/-- R83: at brightness 0 every lane is dark. -/
theorem scale_dark (r : Byte) : scale r 0 = 0 := by
  apply BitVec.eq_of_toNat_eq
  rw [scale_toNat]
  exact Nat.zero_div 255

/-- Settles O40: one bound and one monotonicity, each carried to the other operand by exchanging the two. -/
theorem scaleIsBoundedAndMonotone : Obligations.ScaleIsBoundedAndMonotone := by
  refine ⟨fun r b => ⟨?_, scale_le_brightness r b⟩, fun r r' b => scale_mono_left b, fun r b b' h => ?_,
    fun r => ⟨scale_full r, scale_dark r⟩⟩
  · rw [scale_comm]
    exact scale_le_brightness b r
  · rw [scale_comm r b, scale_comm r b']
    exact scale_mono_left r h

end Sys2Proof.Machine
end

section
/-! PROOFS. The refusals of an operation out of its phase (R88), and the outputs that stay unwritten until the
first COMMIT (R89), spec/60_exceptions.md. -/

namespace Sys2Proof.Machine

/-! ## Out of phase -/

/-- R46: the word of SAMPLE. -/
theorem encode_sample : encode .sample = 0x20000000 := by decide

/-- R46: the word of COMMIT. -/
theorem encode_commit : encode .commit = 0x30000000 := by decide

/-- Settles O14: each operation's meaning in the phase it does not run in, with its word written out. -/
theorem outOfPhaseOperationsAreRefused : Obligations.OutOfPhaseOperationsAreRefused := by
  refine ⟨fun s hs => ?_, fun s hs => ?_, fun w ph => rfl⟩
  · rw [exec_sample_sampled s hs, encode_sample]
  · rw [exec_commit_ready s hs, encode_commit]

/-! ## Runs of operations -/

/-- A run goes on past its first operation exactly when that operation takes its step. -/
theorem runInstrs_cons_eq_next_iff (i : Instr) (is : List Instr) (s u : State) :
    runInstrs (i :: is) s = .next u ↔ ∃ t, exec i s = .next t ∧ runInstrs is t = .next u := by
  cases h : exec i s <;> simp [runInstrs, h]

/-- What every operation of a run keeps, the run keeps. -/
theorem runInstrs_keeps {I : State → Prop} (is : List Instr) (s u : State)
    (hkeep : ∀ i ∈ is, ∀ s t, I s → exec i s = .next t → I t) (hI : I s) (h : runInstrs is s = .next u) : I u := by
  induction is generalizing s with
  | nil =>
    cases h
    exact hI
  | cons i is ih =>
    obtain ⟨t, hexec, hrun⟩ := (runInstrs_cons_eq_next_iff i is s u).mp h
    rw [List.forall_mem_cons] at hkeep
    obtain ⟨hi, his⟩ := hkeep
    exact ih t his (hi s t hI hexec) hrun

/-! ## Unwritten outputs -/

/-- R25: no operation but COMMIT writes the outputs; RST leaves them unwritten. -/
theorem exec_keeps_outputs_unwritten (i : Instr) (s t : State) (hi : i ≠ .commit) (hs : s.outputsWritten = false)
    (h : exec i s = .next t) : t.outputsWritten = false := by
  obtain ⟨-, rfl⟩ | ⟨-, rfl⟩ | ⟨-, -, rfl⟩ | ⟨hc, -, -⟩ | ⟨k, v, -, -, rfl⟩ | ⟨r, rfl, -⟩ := exec_cases i s t h
  · rfl
  · exact hs
  · exact hs
  · exact absurd hc hi
  · exact hs
  · exact hs

/-- R89: outputs unwritten before a run without a COMMIT are unwritten after it. -/
theorem runInstrs_keeps_outputs_unwritten (is : List Instr) (s u : State) (hcommit : .commit ∉ is)
    (hs : s.outputsWritten = false) (h : runInstrs is s = .next u) : u.outputsWritten = false :=
  runInstrs_keeps (I := fun s => s.outputsWritten = false) is s u
    (fun i hi s t => exec_keeps_outputs_unwritten i s t (ne_of_mem_of_not_mem hi hcommit)) hs h

/-- R89: a read of `obs_eff` or of a `led_out[i]` faults while the outputs are unwritten. -/
theorem readPort_of_outputs_unwritten (p : Port) (s : State) (hs : s.outputsWritten = false)
    (hp : p = .obsEff ∨ ∃ i, p = .ledOut i) : readPort p s = .fault (.unwrittenOutput p) := by
  obtain rfl | ⟨i, rfl⟩ := hp
  · simp [readPort, observe, readWritten, hs]
  · simp [readPort, observe, readWritten, hs]

/-- Settles O15: RST and the start of a run both leave the outputs unwritten, and a run without a COMMIT keeps
them so. -/
theorem unwrittenOutputReadsFault : Obligations.UnwrittenOutputReadsFault := by
  intro is s u p hcommit hrun hp
  have hu : u.outputsWritten = false := by
    obtain hrst | hstart := hrun
    · obtain ⟨t, hexec, hrest⟩ := (runInstrs_cons_eq_next_iff .rst is s u).mp hrst
      cases hexec
      exact runInstrs_keeps_outputs_unwritten is (resetRegisters s) u hcommit rfl hrest
    · exact runInstrs_keeps_outputs_unwritten is State.reset u hcommit rfl hstart
  exact readPort_of_outputs_unwritten p u hu hp

end Sys2Proof.Machine
end

section
/-! PROOFS. The first iteration after RST (R106): `was_active` stays 0 from RST to the first COMMIT, which is
therefore row T1 or row T2 of the decision table, spec/70_reset_and_hazards.md. -/

namespace Sys2Proof.Machine

/-- R76, R77: no operation but COMMIT sets `was_active`; RST clears it. -/
theorem exec_keeps_inactive (i : Instr) (s t : State) (hi : i ≠ .commit) (hs : s.wasActive = false)
    (h : exec i s = .next t) : t.wasActive = false := by
  obtain ⟨-, rfl⟩ | ⟨-, rfl⟩ | ⟨-, -, rfl⟩ | ⟨hc, -, -⟩ | ⟨k, v, -, -, rfl⟩ | ⟨r, rfl, -⟩ := exec_cases i s t h
  · rfl
  · exact hs
  · exact hs
  · exact absurd hc hi
  · exact hs
  · exact hs

/-- After an RST and a run without a COMMIT the strobe is inactive. -/
theorem runInstrs_rst_inactive (is : List Instr) (s u : State) (hcommit : .commit ∉ is)
    (h : runInstrs (.rst :: is) s = .next u) : u.wasActive = false := by
  obtain ⟨t, hrst, hrun⟩ := (runInstrs_cons_eq_next_iff .rst is s u).mp h
  cases hrst
  exact runInstrs_keeps (I := fun s => s.wasActive = false) is (resetRegisters s) u
    (fun i hi s t => exec_keeps_inactive i s t (ne_of_mem_of_not_mem hi hcommit)) rfl hrun

/-- R74, rows T1 and T2: while `was_active` is 0 a COMMIT is lit at the latched brightness, and asks for a tick
reset exactly when the latched speed is nonzero. -/
theorem commitTransition_of_inactive (s : State) (hs : s.wasActive = false) :
    commitTransition s = ⟨.on, s.snapMaster, activeFlag s.snapSpeed⟩ := by
  rw [commitTransition, hs]
  by_cases hp : s.snapSpeed = 0
  · rw [hp]
    exact transition_disabled s.strobeState false s.snapTicks s.snapMaster
  · rw [transition_edge _ _ _ _ hp, activeFlag, decide_eq_true hp]

/-- R80: the scaler's result as the byte of its formula. -/
theorem scale_eq_ofNat (r b : Byte) : scale r b = BitVec.ofNat 8 (r.toNat * b.toNat / 255) := by
  rw [← scale_toNat, BitVec.ofNat_toNat, BitVec.setWidth_eq]

/-- R76, R81: COMMIT writes each lane from its own snapshot byte and the brightness of the transition. -/
theorem commitWrites_ledOut_getElem (s : State) (i : Fin 8) :
    (commitWrites s).ledOut[i] = scale s.snapLed[i] (commitTransition s).eff := by
  rw [commitWrites_eq]
  exact Vector.getElem_ofFn i.isLt

/-- Settles O19: the strobe is still inactive at the first COMMIT after RST, so that COMMIT is row T1 or row T2. -/
theorem firstIterationAfterRstIsLit : Obligations.FirstIterationAfterRstIsLit := by
  intro is s u hcommit hrun hsampled
  have htr := commitTransition_of_inactive u (runInstrs_rst_inactive is s u hcommit hrun)
  refine ⟨commitWrites u, exec_commit_sampled u hsampled, ?_, fun i => ?_, fun hspeed => ⟨?_, ?_⟩⟩
  · rw [commitWrites_eq, htr]
  · rw [commitWrites_ledOut_getElem, htr, scale_eq_ofNat]
  · rw [commitWrites_eq, htr]
  · rw [commitWrites_tickCount, htr, activeFlag, decide_eq_true hspeed, if_pos rfl]

end Sys2Proof.Machine
end

section
/-! PROOFS. The decoder and the encoder are inverse to each other (R46, R47), and an operand must fit its field
(R53), spec/30_encoding.md. -/

namespace Sys2Proof.Machine

/-! ## The round trip -/

/-- R45: the word of an operation carries its code. -/
theorem opField_encode : ∀ i : Instr, opField (encode i) = i.opCode.bits
  | .rst => Laws.EncodeOpcode.rst
  | .tick => Laws.EncodeOpcode.tick
  | .sample => Laws.EncodeOpcode.sample
  | .commit => Laws.EncodeOpcode.commit
  | .hostWr k v => Laws.EncodeOpcode.hostWr k v
  | .fOffmap p => Laws.EncodeOpcode.fOffmap p
  | .fNext s a t m p => Laws.EncodeOpcode.fNext s a t m p
  | .fScale r b => Laws.EncodeOpcode.fScale r b

/-- R48: its reserved bits are zero. -/
theorem reservedZero_encode : ∀ i : Instr, i.opCode.reservedZero (encode i) = true
  | .rst => Laws.EncodeReserved.rst
  | .tick => Laws.EncodeReserved.tick
  | .sample => Laws.EncodeReserved.sample
  | .commit => Laws.EncodeReserved.commit
  | .hostWr k v => Laws.EncodeReserved.hostWr k v
  | .fOffmap p => Laws.EncodeReserved.fOffmap p
  | .fNext s a t m p => Laws.EncodeReserved.fNext s a t m p
  | .fScale r b => Laws.EncodeReserved.fScale r b

/-- R47: its fields read back as its operands. -/
theorem decodeFields_encode : ∀ i : Instr, i.wf = true → decodeFields i.opCode (encode i) = .ok i
  | .rst => Laws.EncodeFields.rst
  | .tick => Laws.EncodeFields.tick
  | .sample => Laws.EncodeFields.sample
  | .commit => Laws.EncodeFields.commit
  | .hostWr k v => Laws.EncodeFields.hostWr k v
  | .fOffmap p => Laws.EncodeFields.fOffmap p
  | .fNext s a t m p => Laws.EncodeFields.fNext s a t m p
  | .fScale r b => Laws.EncodeFields.fScale r b

/-- Settles O1: the three checks of R51 pass on the word of a well-formed operation. -/
theorem decodeOfEncodeGivesTheOperation : Obligations.DecodeOfEncodeGivesTheOperation := by
  intro i hwf
  rw [decode_of_op (encode i) i.opCode (opField_encode i), if_pos (reservedZero_encode i)]
  exact decodeFields_encode i hwf

/-- R50: reading the fields gives a HOST_WR only inside the frame. -/
theorem wf_of_decodeFields (op : OpCode) (w : Word) (i : Instr) (h : decodeFields op w = .ok i) : i.wf = true := by
  cases op with
  | hostWr =>
    rw [decodeFields] at h
    split at h
    next hk =>
      cases h
      exact decide_eq_true hk
    next => cases h
  | _ => cases h; rfl

/-- Settles O2: reading the fields checks the offset, and no bit of an accepted word is dropped. -/
theorem acceptedWordIsTheOperationsWord : Obligations.AcceptedWordIsTheOperationsWord := by
  intro w i h
  obtain ⟨op, -, -, hfields⟩ := decode_ok_inv w i h
  exact ⟨wf_of_decodeFields op w i hfields, encode_of_decode_ok w i h⟩

/-- Settles O4: the decoder computes on each word. -/
theorem writtenOutWordsDecode : Obligations.WrittenOutWordsDecode := by
  refine ⟨?_, ?_, ?_, ?_, ?_, ?_, ?_, ?_⟩ <;> decide

/-! ## The operands of a line (R53) -/

/-- What is built from a number operand is built from its value if it fits, and is refused if not. -/
theorem fieldOf_num_bind {α : Type} (w n : Nat) (f : BitVec w → Except AsmError α) :
    (fieldOf w (.num n) >>= f) = if n < 2 ^ w then f (BitVec.ofNat w n) else .error .operandWidth := by
  by_cases h : n < 2 ^ w
  · rw [fieldOf_fits w n h, if_pos h]
    rfl
  · rw [fieldOf_too_wide w n h, if_neg h]
    rfl

/-- A state written as a number is 0 or 1. -/
theorem stateOf_num_bind {α : Type} (n : Nat) (f : StrobeState → Except AsmError α) :
    (stateOf (.num n) >>= f) = if n < 2 then f (if n = 0 then .off else .on) else .error .operandWidth := by
  match n with
  | 0 | 1 | _ + 2 => rfl

/-- A 1-bit operand that fits is set exactly when it is 1. -/
theorem ofNat_one_beq_one {a : Nat} (h : a < 2) : (BitVec.ofNat 1 a == 1) = decide (a = 1) := by
  match a, h with
  | 0, _ | 1, _ => rfl

/-- The flag, ticks, master and speed of `F_NEXT`, once its state is read. -/
theorem lineOf_fNext_tail (s : StrobeState) (a t m p : Nat) :
    (do return Line.op (.fNext s ((← fieldOf 1 (.num a)) == 1) (← fieldOf 8 (.num t)) (← fieldOf 8 (.num m))
      (← fieldOf 8 (.num p)))) =
    if a < 2 ∧ t < 256 ∧ m < 256 ∧ p < 256 then
      .ok (.op (.fNext s (decide (a = 1)) (BitVec.ofNat 8 t) (BitVec.ofNat 8 m) (BitVec.ofNat 8 p)))
    else .error AsmError.operandWidth := by
  simp only [fieldOf_num_bind, ite_and, Nat.reducePow]
  by_cases ha : a < 2
  · rw [if_pos ha, if_pos ha, ofNat_one_beq_one ha]
    rfl
  · rw [if_neg ha, if_neg ha]

/-- Settles O6: each operand that is read either fits or names the refusal, and only that refusal can come. -/
theorem operandsMustFitTheirFields : Obligations.OperandsMustFitTheirFields := by
  refine ⟨fun k v => ?_, fun p => ?_, fun n a t m p => ?_, fun s a t m p => ?_, fun r b => ?_⟩
  · simp only [lineOf, fieldOf_num_bind, ite_and]
    rfl
  · simp only [lineOf, fieldOf_num_bind]
    rfl
  · exact lineOf_fNext_tail n a t m p
  · rw [ite_and, ← lineOf_fNext_tail]
    exact stateOf_num_bind s _
  · simp only [lineOf, fieldOf_num_bind, ite_and]
    rfl

end Sys2Proof.Machine
end

section
/-! PROOFS. What COMMIT writes and leaves, field by field (R76), spec/42_strobe_state_machine.md. -/

namespace Sys2Proof.Machine

@[simp] theorem commitWrites_strobeState (s : State) : (commitWrites s).strobeState = (commitTransition s).ns := by
  rw [commitWrites_eq]

@[simp] theorem commitWrites_wasActive (s : State) : (commitWrites s).wasActive = activeFlag s.snapSpeed := by
  rw [commitWrites_eq]

@[simp] theorem commitWrites_effOut (s : State) : (commitWrites s).effOut = (commitTransition s).eff := by
  rw [commitWrites_eq]

@[simp] theorem commitWrites_outputsWritten (s : State) : (commitWrites s).outputsWritten = true := by
  rw [commitWrites_eq]

@[simp] theorem commitWrites_phase (s : State) : (commitWrites s).phase = .ready := by
  rw [commitWrites_eq]

@[simp] theorem commitWrites_snapSpeed (s : State) : (commitWrites s).snapSpeed = s.snapSpeed := by
  rw [commitWrites_eq]

@[simp] theorem commitWrites_inFrame (s : State) : (commitWrites s).inFrame = s.inFrame := by
  rw [commitWrites_eq]

end Sys2Proof.Machine
end

section
/-! PROOFS. While `was_active` is 0 the counter and `strobe_state` reach no output (R75, R105),
spec/70_reset_and_hazards.md and spec/42_strobe_state_machine.md. -/

namespace Sys2Proof.Machine

/-- Once the strobe is active, two related states in SAMPLED are the same state. -/
theorem SameOutputs.eq_of_active {s t : State} (h : SameOutputs s t) (hactive : s.wasActive = true)
    (hsampled : s.phase = .sampled) : t = s := by
  obtain ⟨heq, hagree⟩ := h
  obtain ⟨htick, hstate, hsnap⟩ := hagree hactive
  rw [heq, htick, hstate, hsnap hsampled]

/-- R74, rows T1 and T2: while the strobe is inactive a COMMIT reads none of the three differing fields, and it
activates the strobe only by a rising edge, which clears the counter. -/
theorem commitWrites_sameOutputs_of_inactive {s t : State} (h : SameOutputs s t) (hs : s.wasActive = false) :
    SameOutputs (commitWrites s) (commitWrites t) := by
  obtain ⟨heq, -⟩ := h
  have ht : t.wasActive = false := by rw [heq]; exact hs
  have hmaster : t.snapMaster = s.snapMaster := by rw [heq]
  have hspeed : t.snapSpeed = s.snapSpeed := by rw [heq]
  rw [commitWrites_eq, commitWrites_eq, commitTransition_of_inactive s hs, commitTransition_of_inactive t ht,
    hmaster, hspeed]
  refine ⟨by rw [heq], fun hactive => ⟨?_, rfl, Phase.noConfusion⟩⟩
  rw [if_pos hactive, if_pos hactive]

/-- A COMMIT of two related states gives related states: they are the same once active, and else no differing
field is read. -/
theorem commitWrites_sameOutputs {s t : State} (h : SameOutputs s t) (hsampled : s.phase = .sampled) :
    SameOutputs (commitWrites s) (commitWrites t) := by
  cases hs : s.wasActive with
  | true =>
    rw [h.eq_of_active hs hsampled]
    exact ⟨rfl, fun _ => ⟨rfl, rfl, fun _ => rfl⟩⟩
  | false => exact commitWrites_sameOutputs_of_inactive h hs

/-- Related states perform the same operations and stay related. -/
theorem exec_sameOutputs (i : Instr) (s t s' : State) (h : SameOutputs s t) (hexec : exec i s = .next s') :
    ∃ t', exec i t = .next t' ∧ SameOutputs s' t' := by
  have ⟨heq, hagree⟩ := h
  have hphase : t.phase = s.phase := by rw [heq]
  have hframe : t.inFrame = s.inFrame := by rw [heq]
  obtain ⟨rfl, rfl⟩ | ⟨rfl, rfl⟩ | ⟨rfl, hp, rfl⟩ | ⟨rfl, hp, rfl⟩ | ⟨k, v, rfl, hk, rfl⟩ | ⟨r, rfl, hcall⟩ :=
    exec_cases i s s' hexec
  case inl =>
    exact ⟨_, exec_rst t, by rw [heq]; rfl, Bool.noConfusion⟩
  case inr.inl =>
    refine ⟨_, exec_tick t, by rw [heq]; rfl, fun ha => ?_⟩
    obtain ⟨htick, hstate, hsnap⟩ := hagree ha
    exact ⟨congrArg (· + 1) htick, hstate, hsnap⟩
  case inr.inr.inl =>
    refine ⟨_, exec_sample_ready t (hphase.trans hp), by rw [heq]; rfl, fun ha => ?_⟩
    obtain ⟨htick, hstate, -⟩ := hagree ha
    exact ⟨htick, hstate, fun _ => htick⟩
  case inr.inr.inr.inl =>
    exact ⟨_, exec_commit_sampled t (hphase.trans hp), commitWrites_sameOutputs h hp⟩
  case inr.inr.inr.inr.inl =>
    exact ⟨_, exec_hostWr_in k v t hk, by rw [heq]; rfl, hagree⟩
  case inr.inr.inr.inr.inr =>
    have hrelated : SameOutputs (s.giveBack r) (t.giveBack r) := ⟨by rw [heq]; rfl, hagree⟩
    obtain ⟨p, rfl, rfl⟩ | ⟨n, a, u, m, p, rfl, rfl⟩ | ⟨x, b, rfl, rfl⟩ := hcall
    · exact ⟨_, exec_fOffmap p t, hrelated⟩
    · exact ⟨_, exec_fNext n a u m p t, hrelated⟩
    · exact ⟨_, exec_fScale x b t, hrelated⟩

/-- So do runs of operations. -/
theorem runInstrs_sameOutputs (is : List Instr) (s t s' : State) (h : SameOutputs s t)
    (hrun : runInstrs is s = .next s') : ∃ t', runInstrs is t = .next t' ∧ SameOutputs s' t' := by
  induction is generalizing s t with
  | nil =>
    cases hrun
    exact ⟨t, rfl, h⟩
  | cons i is ih =>
    obtain ⟨u, hexec, hrest⟩ := (runInstrs_cons_eq_next_iff i is s s').mp hrun
    obtain ⟨v, hexec', huv⟩ := exec_sameOutputs i s t u h hexec
    obtain ⟨t', hrest', hrelated⟩ := ih u v huv hrest
    exact ⟨t', (runInstrs_cons_eq_next_iff i is t t').mpr ⟨v, hexec', hrest'⟩, hrelated⟩

/-- Settles O20: the relation is kept by every operation, and none of the three differing fields is an output. -/
theorem resetTickAndStateReachNoOutput : Obligations.ResetTickAndStateReachNoOutput := by
  intro is s t s' h hrun
  obtain ⟨t', hrun', hrelated⟩ := runInstrs_sameOutputs is s t s' h hrun
  have heq := hrelated.1
  exact ⟨t', hrun', hrelated, by rw [heq]; rfl, fun i => by rw [heq]; rfl⟩

end Sys2Proof.Machine
end

section
/-! PROOFS. The invariant of the block (R27, R28, R68, R73, R83): it holds at reset and every step keeps it,
spec/10_state.md and spec/42_strobe_state_machine.md. -/

namespace Sys2Proof.Machine

/-- The invariant speaks of six fields alone. -/
theorem BlockInv.of_eq {s t : State} (h : BlockInv s) (hframe : t.inFrame = s.inFrame)
    (hwritten : t.outputsWritten = s.outputsWritten) (hstate : t.strobeState = s.strobeState)
    (hactive : t.wasActive = s.wasActive) (heff : t.effOut = s.effOut) (hleds : t.ledOut = s.ledOut) :
    BlockInv t where
  frame_canonical := by rw [hframe]; exact h.frame_canonical
  frame_bounded := by rw [hframe]; exact h.frame_bounded
  unwritten_flags := by rw [hwritten, hstate, hactive]; exact h.unwritten_flags
  disabled_on := by rw [hwritten, hstate, hactive]; exact h.disabled_on
  dark_eff := by rw [hwritten, hstate, heff]; exact h.dark_eff
  lanes_bounded := by rw [hwritten, heff, hleds]; exact h.lanes_bounded

/-- R27: with a canonical frame, the reset values of the flags and unwritten outputs meet the invariant. -/
theorem blockInv_resetRegisters {s : State} (h : BlockInv s) : BlockInv (resetRegisters s) where
  frame_canonical := h.frame_canonical
  frame_bounded := h.frame_bounded
  unwritten_flags _ := ⟨rfl, rfl⟩
  disabled_on := Bool.noConfusion
  dark_eff := Bool.noConfusion
  lanes_bounded := Bool.noConfusion

/-- R36: a write inside the frame keeps it canonical and inside its offsets. -/
theorem blockInv_hostWr {s : State} (h : BlockInv s) (k : Nat) (v : Byte) (hk : k ≤ lastOffset) :
    BlockInv (s.withFrame (Memory.write s.inFrame k v)) where
  frame_canonical := Memory.wf_write s.inFrame k v h.frame_canonical
  frame_bounded := Memory.inFrameSpace_write s.inFrame k v (Nat.lt_succ_of_le hk) h.frame_bounded
  unwritten_flags := h.unwritten_flags
  disabled_on := h.disabled_on
  dark_eff := h.dark_eff
  lanes_bounded := h.lanes_bounded

/-- R68, R73, R83: what COMMIT writes meets the invariant, whatever was written before. -/
theorem blockInv_commitWrites {s : State} (h : BlockInv s) : BlockInv (commitWrites s) where
  frame_canonical := by rw [commitWrites_inFrame]; exact h.frame_canonical
  frame_bounded := by rw [commitWrites_inFrame]; exact h.frame_bounded
  unwritten_flags := by rw [commitWrites_outputsWritten]; exact Bool.noConfusion
  disabled_on _ hinactive := by
    have hspeed : s.snapSpeed = 0 := by simpa [activeFlag] using hinactive
    rw [commitWrites_strobeState, commitTransition, hspeed, transition_disabled]
  dark_eff _ hoff := by
    rw [commitWrites_strobeState] at hoff
    rw [commitWrites_effOut]
    exact (effIsMasterOrZero _ _ _ _ _).2.1 hoff
  lanes_bounded _ i := by
    rw [commitWrites_ledOut_getElem, commitWrites_effOut]
    exact scale_le_brightness _ _

/-- Every operation keeps the invariant. -/
theorem exec_keeps_blockInv (i : Instr) (s t : State) (h : BlockInv s) (hexec : exec i s = .next t) :
    BlockInv t := by
  obtain ⟨-, rfl⟩ | ⟨-, rfl⟩ | ⟨-, -, rfl⟩ | ⟨-, -, rfl⟩ | ⟨k, v, -, hk, rfl⟩ | ⟨r, rfl, -⟩ := exec_cases i s t hexec
  · exact blockInv_resetRegisters h
  · exact h.of_eq rfl rfl rfl rfl rfl rfl
  · exact h.of_eq rfl rfl rfl rfl rfl rfl
  · exact blockInv_commitWrites h
  · exact blockInv_hostWr h k.toNat v hk
  · exact h.of_eq rfl rfl rfl rfl rfl rfl

/-- Settles O49: a step performs one operation or hands a port's value to the host, and taking the event off the
schedule touches no field the invariant speaks of. -/
theorem stepKeepsTheInvariant : Obligations.StepKeepsTheInvariant := by
  intro s t h hstep
  obtain ⟨-, e, rest, -, ⟨w, i, -, -, hexec⟩ | ⟨p, v, -, -, rfl⟩⟩ := step_cases s t hstep
  · exact exec_keeps_blockInv i (s.withSchedule rest) t (h.of_eq rfl rfl rfl rfl rfl rfl) hexec
  · exact h.of_eq rfl rfl rfl rfl rfl rfl

/-- Settles O50: the frame lists nothing, the flags have their reset values and the outputs are unwritten. -/
theorem resetMeetsTheInvariant : Obligations.ResetMeetsTheInvariant where
  frame_canonical := rfl
  frame_bounded := rfl
  unwritten_flags _ := ⟨rfl, rfl⟩
  disabled_on := Bool.noConfusion
  dark_eff := Bool.noConfusion
  lanes_bounded := Bool.noConfusion

end Sys2Proof.Machine
end

section
/-! PROOFS. What a step does with the head of the schedule, runs of a schedule (R38), and how a fault stops them
(R86, R87), spec/20_memory.md and spec/60_exceptions.md. -/

namespace Sys2Proof.Machine

/-! ## One step -/

/-- R38: an unfaulted step performs the head of the schedule on the state with it taken off. -/
theorem step_of_schedule_cons (s : State) (e : Event) (rest : List Event) (hf : s.faulted = none)
    (hs : s.schedule = e :: rest) : step s = performEvent e (s.withSchedule rest) := by
  rw [step, performUnlessFaulted, hf]
  simp only [performNext, hs]

/-- R86: a faulted state answers its fault. -/
theorem step_of_faulted (s : State) (f : Fault) (hf : s.faulted = some f) : step s = .fault f := by
  rw [step, performUnlessFaulted, hf]

/-- R90: an undecodable word is refused under the decoder's cause. -/
theorem step_of_decode_error (s : State) (w : Word) (rest : List Event) (e : DecodeError) (hf : s.faulted = none)
    (hs : s.schedule = .word w :: rest) (hd : decode w = .error e) : step s = .refused (decodeRefusal w e) := by
  rw [step_of_schedule_cons s _ rest hf hs]
  exact performWord_of_error w e _ hd

/-- Settles O7: the event is a word, and a word that decodes is performed as its operation. -/
theorem stepPerformsTheDecodedOperation : Obligations.StepPerformsTheDecodedOperation := by
  intro s w rest i hf hs hd
  rw [step_of_schedule_cons s _ rest hf hs]
  exact performWord_of_ok w i _ hd

/-- Settles O8: one lemma for the three causes, and the codes compute. -/
theorem stepRefusesAnUndecodableWord : Obligations.StepRefusesAnUndecodableWord := by
  intro s w rest hf hs
  exact ⟨step_of_decode_error s w rest _ hf hs, step_of_decode_error s w rest _ hf hs,
    fun k => step_of_decode_error s w rest _ hf hs, rfl, rfl, fun _ => rfl⟩

/-- Settles O9: performing the event is reading the port. -/
theorem stepPerformsThePortRead : Obligations.StepPerformsThePortRead :=
  fun s p rest => step_of_schedule_cons s (.read p) rest

/-- Settles O13: the word is past, and settling a refusal sets the mark alone. -/
theorem refusedWordSetsOnlyItsMark : Obligations.RefusedWordSetsOnlyItsMark := by
  intro s w rest r hf hs hstep
  rw [afterEvent_of_schedule_cons s _ rest hf hs, hstep]
  rfl

/-- Settles O48: every code computes. -/
theorem causeCodesAreNumbered : Obligations.CauseCodesAreNumbered :=
  ⟨fun _ => rfl, fun _ => rfl, fun _ _ => rfl, fun _ => rfl, fun _ _ => rfl, fun _ => rfl⟩

/-! ## The fault -/

/-- Settles O11: the mark that is raised stops every step and every event, and no operation changes a mark. -/
theorem faultedStateHasNoFurtherSteps : Obligations.FaultedStateHasNoFurtherSteps := by
  intro f s
  refine ⟨rfl, step_of_faulted _ f rfl, rfl, fun n => ?_, fun i t h => ?_⟩
  · exact afterEvents_of_faulted n (raiseFault f s) (Option.some_ne_none f)
  · exact (exec_sameMarks i (raiseFault f s) t h).1

/-! ## Runs of a schedule -/

/-- An outcome with its next state changed by `f`; a stop stays as it is. -/
def mapNext (f : State → State) : Host.Outcome State Fault Refusal → Host.Outcome State Fault Refusal
  | .next s => .next (f s)
  | .fault r => .fault r
  | .refused r => .refused r

/-- R23: no operation reads or writes the schedule. -/
theorem exec_withSchedule (i : Instr) (s : State) (es : List Event) :
    exec i (s.withSchedule es) = mapNext (·.withSchedule es) (exec i s) := by
  cases i with
  | sample =>
    cases hp : s.phase with
    | ready => rw [exec_sample_ready s hp, exec_sample_ready (s.withSchedule es) hp]; rfl
    | sampled => rw [exec_sample_sampled s hp, exec_sample_sampled (s.withSchedule es) hp]; rfl
  | commit =>
    cases hp : s.phase with
    | ready => rw [exec_commit_ready s hp, exec_commit_ready (s.withSchedule es) hp]; rfl
    | sampled =>
      rw [exec_commit_sampled s hp, exec_commit_sampled (s.withSchedule es) hp, commitWrites_eq, commitWrites_eq]
      rfl
  | hostWr k v =>
    by_cases hk : k.toNat ≤ lastOffset
    · rw [exec_hostWr_in k v s hk, exec_hostWr_in k v (s.withSchedule es) hk]; rfl
    · rw [exec_hostWr_out k v s hk, exec_hostWr_out k v (s.withSchedule es) hk]; rfl
  | _ => rfl

/-- A run of a machine goes on from a step that is taken. -/
theorem core_run_succ_of_next {M : Host.Core} (n : Nat) {s t : M.State} (h : M.step s = .next t) :
    M.run (n + 1) s = M.run n t := by
  rw [Host.Core.run, h]

theorem core_run_succ_of_fault {M : Host.Core} (n : Nat) {s : M.State} {f : M.Fault} (h : M.step s = .fault f) :
    M.run (n + 1) s = .fault f := by
  rw [Host.Core.run, h]

theorem core_run_succ_of_refused {M : Host.Core} (n : Nat) {s : M.State} {r : M.Refusal}
    (h : M.step s = .refused r) : M.run (n + 1) s = .refused r := by
  rw [Host.Core.run, h]

/-- Settles O10: the step of the first word is its operation, and what is still to come of the schedule is carried
through it, so the rest of the run is that of the remaining operations. -/
theorem scheduleRunsItsOperationsInOrder : Obligations.ScheduleRunsItsOperationsInOrder := by
  intro is rest s hwf hf hs
  change _ = runInstrs is (s.withSchedule rest)
  induction is generalizing s with
  | nil =>
    change Host.Outcome.next s = .next (s.withSchedule rest)
    rw [List.map_nil, List.nil_append] at hs
    rw [← hs]
    rfl
  | cons i is ih =>
    rw [List.forall_mem_cons] at hwf
    obtain ⟨hi, his⟩ := hwf
    have hstep := stepPerformsTheDecodedOperation s (encode i) _ i hf hs (decodeOfEncodeGivesTheOperation i hi)
    change step s = exec i (s.withSchedule _) at hstep
    rw [exec_withSchedule] at hstep
    rw [runInstrs, exec_withSchedule]
    cases hexec : exec i s with
    | next t =>
      rw [hexec] at hstep
      have hft := (exec_sameMarks i s t hexec).1.trans hf
      exact (core_run_succ_of_next (M := core) is.length hstep).trans (ih (t.withSchedule _) his hft rfl)
    | fault f =>
      rw [hexec] at hstep
      exact core_run_succ_of_fault (M := core) is.length hstep
    | refused r =>
      rw [hexec] at hstep
      exact core_run_succ_of_refused (M := core) is.length hstep

end Sys2Proof.Machine
end

section
/-! PROOFS. What the output ports show (R26, R35), and the state RST leaves (R27, R103), spec/10_state.md and
spec/70_reset_and_hazards.md. -/

namespace Sys2Proof.Machine

/-! ## Ports -/

/-- R35: a read that gives a value hands it to the host and changes nothing else. -/
theorem readPort_of_observe {p : Port} {s : State} {v : PortValue} (h : observe s p = .ok v) :
    readPort p s = .next (s.giveBack (.port p v)) := by
  rw [readPort, h]

/-- R25: a written register is read. -/
theorem readWritten_of_written {s : State} (h : s.outputsWritten = true) (p : Port) (v : Byte) :
    readWritten s p v = .ok (.byte v) := if_pos h

/-- R26: `obs_eff` and every `led_out[i]` show their registers once these are written. -/
theorem readPort_outputs_of_written {s : State} (h : s.outputsWritten = true) :
    readPort .obsEff s = .next (s.giveBack (.port .obsEff (.byte s.effOut))) ∧
    ∀ i : Fin 8, readPort (.ledOut i) s = .next (s.giveBack (.port (.ledOut i) (.byte s.ledOut[i]))) :=
  ⟨readPort_of_observe (readWritten_of_written h .obsEff s.effOut),
    fun i => readPort_of_observe (readWritten_of_written h (.ledOut i) s.ledOut[i])⟩

/-- R25: no operation but RST takes the outputs' values away; COMMIT writes them. -/
theorem exec_keeps_outputs_written (i : Instr) (s t : State) (hi : i ≠ .rst) (hs : s.outputsWritten = true)
    (h : exec i s = .next t) : t.outputsWritten = true := by
  obtain ⟨hr, -⟩ | ⟨-, rfl⟩ | ⟨-, -, rfl⟩ | ⟨-, -, rfl⟩ | ⟨k, v, -, -, rfl⟩ | ⟨r, rfl, -⟩ := exec_cases i s t h
  · exact absurd hr hi
  · exact hs
  · exact hs
  · exact commitWrites_outputsWritten s
  · exact hs
  · exact hs

/-- A COMMIT that takes its step is in SAMPLED and does what `commitWrites` says. -/
theorem exec_commit_inv {s t : State} (h : exec .commit s = .next t) : s.phase = .sampled ∧ t = commitWrites s := by
  have hp := (exec_commit_phases s t h).1
  rw [exec_commit_sampled s hp] at h
  cases h
  exact ⟨hp, rfl⟩

/-- Settles O16: each port's observation is its register's, and the outputs, once written by a COMMIT, stay written
along a run without RST. -/
theorem portsReadTheirRegisters : Obligations.PortsReadTheirRegisters := by
  refine ⟨fun s => ⟨rfl, fun h => ?_, fun h => ?_, ?_, fun h => ?_, fun h => ?_, readPort_outputs_of_written⟩,
    fun is s t u hrst hcommit hrun => readPort_outputs_of_written ?_⟩
  · exact readPort_of_observe (by rw [observe, h]; rfl)
  · exact readPort_of_observe (by rw [observe, h]; rfl)
  · exact readPort_of_observe (by rw [observe]; cases s.wasActive <;> rfl)
  · exact readPort_of_observe (by rw [observe, h]; rfl)
  · exact readPort_of_observe (by rw [observe, h]; rfl)
  · obtain ⟨-, rfl⟩ := exec_commit_inv hcommit
    exact runInstrs_keeps (I := fun s => s.outputsWritten = true) is (commitWrites s) u
      (fun i hi s t => exec_keeps_outputs_written i s t (ne_of_mem_of_not_mem hi hrst))
      (commitWrites_outputsWritten s) hrun

/-! ## Reset -/

/-- Settles O17: the registers compute, the reads fault for want of a COMMIT, and the phase is READY. -/
theorem rstPutsTheResetState : Obligations.RstPutsTheResetState := by
  refine ⟨by decide, fun s => ⟨resetRegisters s, exec_rst s, rfl, rfl, rfl, rfl, ?_, fun i => ?_, ?_, ?_,
    fun _ => rfl, rfl, rfl, rfl, rfl⟩⟩
  · exact readPort_of_outputs_unwritten _ _ rfl (.inl rfl)
  · exact readPort_of_outputs_unwritten _ _ rfl (.inr ⟨i, rfl⟩)
  · exact outOfPhaseOperationsAreRefused.2.1 _ rfl
  · exact (takesStep_sample_iff _).mpr rfl

/-- Settles O18: the values compute, and the reads fault for want of a COMMIT. -/
theorem resetStateValues : Obligations.ResetStateValues :=
  ⟨rfl, rfl, rfl, rfl, rfl, rfl, readPort_of_outputs_unwritten _ _ rfl (.inl rfl),
    fun i => readPort_of_outputs_unwritten _ _ rfl (.inr ⟨i, rfl⟩)⟩

end Sys2Proof.Machine
end

section
/-! PROOFS. The unit calls (R52, R61, R67, R80) return the formulas of their units, spec/41_strobe_rate_mapper.md,
spec/42_strobe_state_machine.md and spec/43_brightness_scaler.md. -/

namespace Sys2Proof.Machine

/-- R61: the mapper's result as the byte of its formula. -/
theorem offMap_eq_ofNat (p : Byte) : offMap p = BitVec.ofNat 8 ((51000 - p.toNat * 190) / 255) := by
  rw [← offMap_toNat, BitVec.ofNat_toNat, BitVec.setWidth_eq]

/-- Settles O25: the call hands back the mapper's value. -/
theorem offMapCallReturnsTheFormula : Obligations.OffMapCallReturnsTheFormula := by
  intro p s
  rw [exec_fOffmap, offMap_eq_ofNat]
  rfl

/-- Settles O26: the ends compute, and from speed 1 on the formula stays between them. -/
theorem offMapRange : Obligations.OffMapRange := by
  refine ⟨by decide, by decide, by decide, fun p hp => ⟨(offMap_range p).1, ?_⟩⟩
  have hpos : p.toNat ≠ 0 := fun h => hp (BitVec.eq_of_toNat_eq h)
  rw [offMap_toNat]
  omega

/-- Settles O39: the call hands back the scaler's value. -/
theorem scaleCallReturnsTheTruncatedQuotient : Obligations.ScaleCallReturnsTheTruncatedQuotient := by
  intro r b s
  refine ⟨product_lt r b, ?_⟩
  rw [exec_fScale, scale_eq_ofNat]
  rfl

/-- R68 to R72: the transition function, its branches written out. -/
theorem transition_eq_ite (s : StrobeState) (a : Bool) (t m p : Byte) :
    transition s a t m p =
      if p.toNat = 0 then ⟨.on, m, false⟩
      else if a = false then ⟨.on, m, true⟩
      else if s = .on then (if 4 ≤ t.toNat then ⟨.off, 0, true⟩ else ⟨.on, m, false⟩)
      else if (51000 - p.toNat * 190) / 255 < t.toNat then ⟨.on, m, true⟩
      else ⟨.off, 0, false⟩ := by
  by_cases hp : p = 0
  · subst hp; rfl
  · have hp0 : p.toNat ≠ 0 := fun h => hp (BitVec.eq_of_toNat_eq h)
    rw [if_neg hp0]
    match a, s with
    | false, s => exact transition_edge s t m p hp
    | true, .on => exact transition_lit t m p hp
    | true, .off =>
      rw [← offMap_toNat]
      exact transition_dark t m p hp

/-- Settles O30: the call hands back the transition, branch by branch. -/
theorem nextCallReturnsTheTransition : Obligations.NextCallReturnsTheTransition := by
  intro s a t m p st
  rw [exec_fNext, transition_eq_ite]
  rfl

/-- R52: a value handed back leaves the block as it is. -/
theorem sameBlock_giveBack (s : State) (r : Returned) : SameBlock s (s.giveBack r) := rfl

/-- Settles O46: each unit call hands back one value. -/
theorem unitCallsChangeNoBlockState : Obligations.UnitCallsChangeNoBlockState := by
  intro i s hcall
  cases i with
  | fOffmap p => exact ⟨_, _, exec_fOffmap p s, sameBlock_giveBack s _, rfl, rfl⟩
  | fNext n a t m p => exact ⟨_, _, exec_fNext n a t m p s, sameBlock_giveBack s _, rfl, rfl⟩
  | fScale r b => exact ⟨_, _, exec_fScale r b s, sameBlock_giveBack s _, rfl, rfl⟩
  | _ => cases hcall

end Sys2Proof.Machine
end

section
/-! PROOFS. Who writes what: the host the frame (R28, R36), and each register its one writer (R14 to R19); and when
an operation completes (R95), spec/10_state.md, spec/20_memory.md and spec/60_exceptions.md. -/

namespace Sys2Proof.Machine

/-- R38: in a canonical frame a write leaves every other offset. -/
theorem read_write_of_ne {m : Memory} (hm : Memory.wf m = true) {j k : Nat} (v : Byte) (hj : j ≠ k) :
    Memory.read (Memory.write m k v) j = Memory.read m j := by
  rw [Memory.read_write m k v hm, if_neg hj.symm]

/-- R38: a write is read back. -/
theorem read_write_same {m : Memory} (hm : Memory.wf m = true) (k : Nat) (v : Byte) :
    Memory.read (Memory.write m k v) k = v := by
  rw [Memory.read_write m k v hm, if_pos rfl]

/-- Settles O42: the write's two laws, and the refusal past the frame. -/
theorem hostWriteStoresOneByte : Obligations.HostWriteStoresOneByte :=
  ⟨fun k v s hk hm => ⟨_, exec_hostWr_in k v s hk, rfl, read_write_same hm k.toNat v,
      fun _ hj => read_write_of_ne hm v hj⟩,
    fun k v s hk => exec_hostWr_out k v s (Nat.not_le.mpr hk)⟩

/-- R28: an operation that is not the host's leaves the frame. -/
theorem exec_keeps_frame (i : Instr) (s t : State) (hi : performer i ≠ .host) (h : exec i s = .next t) :
    t.inFrame = s.inFrame := by
  obtain ⟨-, rfl⟩ | ⟨-, rfl⟩ | ⟨-, -, rfl⟩ | ⟨-, -, rfl⟩ | ⟨k, v, rfl, -⟩ | ⟨r, rfl, -⟩ := exec_cases i s t h
  · rfl
  · rfl
  · rfl
  · exact commitWrites_inFrame s
  · exact absurd rfl hi
  · rfl

/-- Settles O43: the frame is the same data, so every offset reads alike. -/
theorem onlyTheHostWritesTheFrame : Obligations.OnlyTheHostWritesTheFrame := by
  intro i s t h hi j
  rw [exec_keeps_frame i s t hi h]

/-- R14 to R17: the flags and the outputs of two states are the same. -/
def SameFlagsAndOutputs (s t : State) : Prop :=
  t.strobeState = s.strobeState ∧ t.wasActive = s.wasActive ∧ t.effOut = s.effOut ∧ t.ledOut = s.ledOut ∧
    t.outputsWritten = s.outputsWritten

/-- R19: the snapshots of two states are the same. -/
def SameSnapshot (s t : State) : Prop :=
  t.snapMaster = s.snapMaster ∧ t.snapSpeed = s.snapSpeed ∧ t.snapTicks = s.snapTicks ∧ t.snapLed = s.snapLed

/-- R19: COMMIT names no snapshot register among what it writes. -/
theorem commitWrites_sameSnapshot (s : State) : SameSnapshot s (commitWrites s) := by
  rw [commitWrites_eq]
  exact ⟨rfl, rfl, rfl, rfl⟩

theorem exec_keeps_flags_and_outputs (i : Instr) (s t : State) (hr : i ≠ .rst) (hc : i ≠ .commit)
    (h : exec i s = .next t) : SameFlagsAndOutputs s t := by
  obtain ⟨hi, -⟩ | ⟨-, rfl⟩ | ⟨-, -, rfl⟩ | ⟨hi, -⟩ | ⟨k, v, -, -, rfl⟩ | ⟨r, rfl, -⟩ := exec_cases i s t h
  · exact absurd hi hr
  · exact ⟨rfl, rfl, rfl, rfl, rfl⟩
  · exact ⟨rfl, rfl, rfl, rfl, rfl⟩
  · exact absurd hi hc
  · exact ⟨rfl, rfl, rfl, rfl, rfl⟩
  · exact ⟨rfl, rfl, rfl, rfl, rfl⟩

theorem exec_keeps_snapshot (i : Instr) (s t : State) (hr : i ≠ .rst) (hs : i ≠ .sample)
    (h : exec i s = .next t) : SameSnapshot s t := by
  obtain ⟨hi, -⟩ | ⟨-, rfl⟩ | ⟨hi, -⟩ | ⟨-, -, rfl⟩ | ⟨k, v, -, -, rfl⟩ | ⟨r, rfl, -⟩ := exec_cases i s t h
  · exact absurd hi hr
  · exact ⟨rfl, rfl, rfl, rfl⟩
  · exact absurd hi hs
  · exact commitWrites_sameSnapshot s
  · exact ⟨rfl, rfl, rfl, rfl⟩
  · exact ⟨rfl, rfl, rfl, rfl⟩

theorem exec_keeps_phase (i : Instr) (s t : State) (hr : i ≠ .rst) (hs : i ≠ .sample) (hc : i ≠ .commit)
    (h : exec i s = .next t) : t.phase = s.phase := by
  obtain ⟨hi, -⟩ | ⟨-, rfl⟩ | ⟨hi, -⟩ | ⟨hi, -⟩ | ⟨k, v, -, -, rfl⟩ | ⟨r, rfl, -⟩ := exec_cases i s t h
  · exact absurd hi hr
  · rfl
  · exact absurd hi hs
  · exact absurd hi hc
  · rfl
  · rfl

/-- Settles O44: one frame lemma per register group. -/
theorem registersHaveTheirOneWriter : Obligations.RegistersHaveTheirOneWriter :=
  fun i s t h hr => ⟨fun hc => exec_keeps_flags_and_outputs i s t hr hc h,
    fun hs => exec_keeps_snapshot i s t hr hs h, fun hs hc => exec_keeps_phase i s t hr hs hc h⟩

/-- R18, R36, R95: an operation takes its step exactly when it is enabled. -/
theorem takesStep_iff_enabled (i : Instr) (s : State) : takesStep (exec i s) ↔ enabled i s = true := by
  cases i with
  | sample => rw [takesStep_sample_iff, enabled, decide_eq_true_iff]
  | commit => rw [takesStep_commit_iff, enabled, decide_eq_true_iff]
  | hostWr k v =>
    rw [enabled, decide_eq_true_iff]
    by_cases hk : k.toNat ≤ lastOffset
    · exact iff_of_true ⟨_, exec_hostWr_in k v s hk⟩ hk
    · rw [exec_hostWr_out k v s hk]
      exact iff_of_false (fun ⟨t, h⟩ => nomatch h) hk
  | _ => exact iff_of_true ⟨_, rfl⟩ rfl

/-- Settles O47: TICK is enabled always, and each phase enables one operation of LOOP. -/
theorem operationCompletesExactlyWhenEnabled : Obligations.OperationCompletesExactlyWhenEnabled := by
  refine ⟨takesStep_iff_enabled, fun s => ⟨⟨_, exec_tick s⟩, ?_⟩⟩
  rw [takesStep_sample_iff, takesStep_commit_iff]
  cases s.phase with
  | ready => exact .inl rfl
  | sampled => exact .inr rfl

end Sys2Proof.Machine
end

section
/-! PROOFS. COMMIT's whole effect (R76, R81), its lanes (R82) and what `was_active` remembers of it (R77),
spec/42_strobe_state_machine.md and spec/43_brightness_scaler.md. -/

namespace Sys2Proof.Machine

/-- Settles O33: the model's one update is the statement's, the scaler's formula in each lane. -/
theorem commitWritesTheIteration : Obligations.CommitWritesTheIteration := by
  refine ⟨by decide, fun s hs => ⟨(effIsMasterOrZero _ _ _ _ _).1, ?_⟩, outOfPhaseOperationsAreRefused.2.1⟩
  rw [exec_commit_sampled s hs, commitWrites_eq]
  simp only [scale_eq_ofNat]
  rfl

/-- Settles O41: a lane is its own snapshot byte scaled by the brightness written with it. -/
theorem lanesAreIndependent : Obligations.LanesAreIndependent := by
  intro s s' t t' i hexec hexec' hsnap heff
  obtain ⟨-, rfl⟩ := exec_commit_inv hexec
  obtain ⟨-, rfl⟩ := exec_commit_inv hexec'
  rw [commitWrites_effOut, commitWrites_effOut] at heff
  rw [commitWrites_ledOut_getElem, commitWrites_ledOut_getElem, hsnap, heff]

/-- R15: a run without COMMIT and RST leaves `was_active`. -/
theorem runInstrs_keeps_wasActive (is : List Instr) (s u : State) (hcommit : .commit ∉ is) (hrst : .rst ∉ is)
    (h : runInstrs is s = .next u) : u.wasActive = s.wasActive :=
  runInstrs_keeps (I := fun t => t.wasActive = s.wasActive) is s u
    (fun i hi t v ht hexec =>
      have ⟨_, hwas, _⟩ := exec_keeps_flags_and_outputs i t v (ne_of_mem_of_not_mem hi hrst)
        (ne_of_mem_of_not_mem hi hcommit) hexec
      hwas.trans ht) rfl h

/-- Settles O34: COMMIT and RST write the flag, and nothing else of the run does. -/
theorem wasActiveRemembersTheLastCommit : Obligations.WasActiveRemembersTheLastCommit := by
  refine fun is s t u hcommit hrst => ⟨fun hexec hrun => ?_, fun hexec hrun => ?_⟩
  · obtain ⟨-, rfl⟩ := exec_commit_inv hexec
    exact (runInstrs_keeps_wasActive is _ u hcommit hrst hrun).trans (commitWrites_wasActive s)
  · cases hexec
    exact runInstrs_keeps_wasActive is _ u hcommit hrst hrun

end Sys2Proof.Machine
end

section
/-! PROOFS. The races: TICKs inside an iteration (R41, R55) and simultaneous events (R94), spec/20_memory.md and
spec/60_exceptions.md. -/

namespace Sys2Proof.Machine

/-- R66: what SAMPLE makes of a state in READY. -/
def sampleWrites (s : State) : State :=
  (s.withSnapshot (inMaster s) (inSpeed s) s.tickCount (inLeds s)).withPhase .sampled

theorem exec_sample_eq (s : State) (h : s.phase = .ready) : exec .sample s = .next (sampleWrites s) :=
  exec_sample_ready s h

theorem runInstrs_pair {i j : Instr} {s t u : State} (hi : exec i s = .next t) (hj : exec j t = .next u) :
    runInstrs [i, j] s = .next u :=
  (runInstrs_cons_eq_next_iff i [j] s u).mpr ⟨t, hi, (runInstrs_cons_eq_next_iff j [] t u).mpr ⟨u, hj, rfl⟩⟩

/-- R55: `n` TICKs add `n` to the counter, modulo 256, and write nothing else. -/
theorem runInstrs_replicate_tick (n : Nat) (s : State) :
    runInstrs (List.replicate n .tick) s = .next (s.withTick (s.tickCount + BitVec.ofNat 8 n)) := by
  induction n generalizing s with
  | zero => rw [show s.tickCount + BitVec.ofNat 8 0 = s.tickCount from BitVec.add_zero _]; rfl
  | succ n ih =>
    have hsum : s.tickCount + 1 + BitVec.ofNat 8 n = s.tickCount + BitVec.ofNat 8 (n + 1) := by
      rw [BitVec.add_assoc, BitVec.ofNat_add, BitVec.add_comm (BitVec.ofNat 8 n)]
      rfl
    rw [List.replicate_succ, runInstrs_cons_eq_next_iff]
    refine ⟨_, exec_tick s, (ih _).trans ?_⟩
    rw [State.withTick_tickCount, hsum]
    rfl

/-- Settles O23: SAMPLE has latched the counter before the TICKs, so the COMMIT's transition does not see them. -/
theorem ticksInsideAnIterationAreLostOrKept : Obligations.TicksInsideAnIterationAreLostOrKept := by
  intro s n hready
  refine ⟨(sampleWrites s).withTick (s.tickCount + BitVec.ofNat 8 n), commitWrites _, ?_, rfl, rfl,
    exec_commit_sampled _ rfl, commitWrites_tickCount _⟩
  exact (runInstrs_cons_eq_next_iff _ _ _ _).mpr
    ⟨_, exec_sample_eq s hready, runInstrs_replicate_tick n (sampleWrites s)⟩

/-- R94: TICK and a clearing COMMIT, in either order. -/
theorem tick_and_commit_in_either_order (s : State) (hsampled : s.phase = .sampled)
    (hclear : (commitTransition s).rr = true) :
    (∃ t, runInstrs [.tick, .commit] s = .next t ∧ t.tickCount = 0) ∧
    (∃ t, runInstrs [.commit, .tick] s = .next t ∧ t.tickCount = 1) := by
  refine ⟨⟨_, runInstrs_pair (exec_tick s) (exec_commit_sampled _ hsampled), ?_⟩,
    ⟨_, runInstrs_pair (exec_commit_sampled s hsampled) (exec_tick _), ?_⟩⟩
  · rw [commitWrites_tickCount]
    exact if_pos hclear
  · rw [State.withTick_tickCount, commitWrites_tickCount, if_pos hclear]
    rfl

/-- R94: TICK and SAMPLE, in either order. -/
theorem tick_and_sample_in_either_order (s : State) (hready : s.phase = .ready) :
    (∃ t, runInstrs [.tick, .sample] s = .next t ∧ t.snapTicks = s.tickCount + 1) ∧
    (∃ t, runInstrs [.sample, .tick] s = .next t ∧ t.snapTicks = s.tickCount) :=
  ⟨⟨_, runInstrs_pair (exec_tick s) (exec_sample_eq _ hready), rfl⟩,
    ⟨_, runInstrs_pair (exec_sample_eq s hready) (exec_tick _), rfl⟩⟩

/-- R94: a host write of the master byte and SAMPLE, in either order. -/
theorem hostWr_and_sample_in_either_order (s : State) (v : Byte) (hready : s.phase = .ready)
    (hm : Memory.wf s.inFrame = true) :
    (∃ t, runInstrs [.hostWr 0 v, .sample] s = .next t ∧ t.snapMaster = v) ∧
    (∃ t, runInstrs [.sample, .hostWr 0 v] s = .next t ∧ t.snapMaster = Memory.read s.inFrame 0) := by
  have hk : (0 : BitVec 10).toNat ≤ lastOffset := by decide
  exact ⟨⟨_, runInstrs_pair (exec_hostWr_in 0 v s hk) (exec_sample_eq _ hready), read_write_same hm 0 v⟩,
    ⟨_, runInstrs_pair (exec_sample_eq s hready) (exec_hostWr_in 0 v _ hk), rfl⟩⟩

/-- Settles O24: three pairs of events, each in both orders. -/
theorem simultaneousEventsMayComeInEitherOrder : Obligations.SimultaneousEventsMayComeInEitherOrder :=
  ⟨tick_and_commit_in_either_order, tick_and_sample_in_either_order, hostWr_and_sample_in_either_order⟩

end Sys2Proof.Machine
end

section
/-! PROOFS. The flash in ticks (R79): a clock counts the rounds of a cycle, each round moves it by one, and the strobe
shows what the clock says, spec/42_strobe_state_machine.md. -/

namespace Sys2Proof.Machine

/-! ## A whole iteration -/

/-- R28, R66: SAMPLE latches the speed byte of the frame. -/
theorem sampleWrites_snapSpeed (s : State) : (sampleWrites s).snapSpeed = Memory.read s.inFrame 1 := rfl

/-- R54, R66, R76: what ITERATE makes of a state in READY. -/
def iterateWrites (s : State) : State := commitWrites (sampleWrites s)

theorem runInstrs_iterate (s : State) (h : s.phase = .ready) :
    runInstrs iterateInstrs s = .next (iterateWrites s) :=
  runInstrs_pair (exec_sample_eq s h) (exec_commit_sampled _ rfl)

/-- A run of two lists is a run of the first and then of the second. -/
theorem runInstrs_append {is js : List Instr} {s t u : State} (his : runInstrs is s = .next t)
    (hjs : runInstrs js t = .next u) : runInstrs (is ++ js) s = .next u := by
  induction is generalizing s with
  | nil =>
    cases his
    exact hjs
  | cons i is ih =>
    obtain ⟨v, hexec, hrest⟩ := (runInstrs_cons_eq_next_iff i is s t).mp his
    exact (runInstrs_cons_eq_next_iff i (is ++ js) s u).mpr ⟨v, hexec, ih hrest⟩

/-! ## An active strobe between two iterations -/

/-- The strobe is active between two iterations, its state is `st`, its counter stands at `n`, and its frame is
`m`. -/
structure Flashing (m : Memory) (st : StrobeState) (n : Nat) (s : State) : Prop where
  phase_ready : s.phase = .ready
  active : s.wasActive = true
  frame_eq : s.inFrame = m
  state_eq : s.strobeState = st
  ticks_eq : s.tickCount = BitVec.ofNat 8 n

/-- R73: the brightness a state shows with the frame `m`. -/
def shown (m : Memory) : StrobeState → Byte
  | .off => 0
  | .on => Memory.read m 0

/-- The transition an iteration makes of an active strobe with the frame `m`. -/
def flashTransition (m : Memory) (st : StrobeState) (n : Nat) : Transition :=
  transition st true (BitVec.ofNat 8 n) (Memory.read m 0) (Memory.read m 1)

theorem commitTransition_of_flashing {m : Memory} {st : StrobeState} {n : Nat} {s : State}
    (h : Flashing m st n s) : commitTransition (sampleWrites s) = flashTransition m st n := by
  rw [flashTransition, ← h.frame_eq, ← h.state_eq, ← h.ticks_eq, ← h.active]
  rfl

/-- R55: a TICK moves the counter. -/
theorem Flashing.tick {m : Memory} {st : StrobeState} {n : Nat} {s : State} (h : Flashing m st n s) :
    Flashing m st (n + 1) (s.withTick (s.tickCount + 1)) where
  phase_ready := h.phase_ready
  active := h.active
  frame_eq := h.frame_eq
  state_eq := h.state_eq
  ticks_eq := by
    rw [State.withTick_tickCount, h.ticks_eq, BitVec.ofNat_add]
    rfl

/-- R76: an iteration takes the transition's state and brightness, and clears the counter if asked. -/
theorem Flashing.iterate {m : Memory} {st st' : StrobeState} {n n' : Nat} {s : State} {rr : Bool}
    (h : Flashing m st n s) (hspeed : Memory.read m 1 ≠ 0)
    (htr : flashTransition m st n = ⟨st', shown m st', rr⟩) (hn : n' = if rr then 0 else n) :
    Flashing m st' n' (iterateWrites s) ∧ (iterateWrites s).effOut = shown m st' := by
  have hct := (commitTransition_of_flashing h).trans htr
  refine ⟨⟨commitWrites_phase _, ?_, ?_, ?_, ?_⟩, ?_⟩
  · rw [iterateWrites, commitWrites_wasActive, sampleWrites_snapSpeed, h.frame_eq]
    exact decide_eq_true hspeed
  · rw [iterateWrites, commitWrites_inFrame]
    exact h.frame_eq
  · rw [iterateWrites, commitWrites_strobeState, hct]
  · rw [iterateWrites, commitWrites_tickCount, hct, hn]
    cases rr with
    | true => rfl
    | false => exact h.ticks_eq
  · rw [iterateWrites, commitWrites_effOut, hct]

/-- Further iterations repeat a transition that keeps the state and clears nothing. -/
theorem Flashing.iterate_settled {m : Memory} {st : StrobeState} {n : Nat} (hspeed : Memory.read m 1 ≠ 0)
    (hsettled : flashTransition m st n = ⟨st, shown m st, false⟩) (k : Nat) {s : State} (h : Flashing m st n s)
    (heff : s.effOut = shown m st) :
    ∃ t, runInstrs (List.replicate k iterateInstrs).flatten s = .next t ∧ Flashing m st n t ∧
      t.effOut = shown m st := by
  induction k generalizing s with
  | zero => exact ⟨s, rfl, h, heff⟩
  | succ k ih =>
    obtain ⟨hnext, heff'⟩ := h.iterate hspeed hsettled rfl
    obtain ⟨t, hrun, ht⟩ := ih hnext heff'
    exact ⟨t, runInstrs_append (runInstrs_iterate s h.phase_ready) hrun, ht⟩

/-! ## The clock of a cycle -/

/-- R79: the rounds of a cycle, 4 lit and `off + 1` dark. -/
def cycleLength (m : Memory) : Nat := (offMap (Memory.read m 1)).toNat + 5

/-- R79: the state and the counter at position `c` of a cycle. -/
def flashClock (c : Nat) : StrobeState × Nat := if c < 4 then (.on, c) else (.off, c - 4)

theorem flashClock_lit {c : Nat} (h : c < 4) : flashClock c = (.on, c) := if_pos h

theorem flashClock_dark {c : Nat} (h : 4 ≤ c) : flashClock c = (.off, c - 4) := if_neg (Nat.not_lt.mpr h)

/-- R70: a lit strobe whose ticks are below 4 stays lit, and goes dark with a clear from 4 on. -/
theorem flashTransition_on {m : Memory} (hspeed : Memory.read m 1 ≠ 0) {n : Nat} (hn : n < 256) :
    flashTransition m .on n = if 4 ≤ n then ⟨.off, 0, true⟩ else ⟨.on, Memory.read m 0, false⟩ := by
  rw [flashTransition, transition_lit _ _ _ hspeed, BitVec.toNat_ofNat, Nat.mod_eq_of_lt hn]

/-- R71: a dark strobe stays dark up to `off` ticks, and is lit with a clear past them. -/
theorem flashTransition_off {m : Memory} (hspeed : Memory.read m 1 ≠ 0) {n : Nat} (hn : n < 256) :
    flashTransition m .off n =
      if (offMap (Memory.read m 1)).toNat < n then ⟨.on, Memory.read m 0, true⟩ else ⟨.off, 0, false⟩ := by
  rw [flashTransition, transition_dark _ _ _ hspeed, BitVec.toNat_ofNat, Nat.mod_eq_of_lt hn]

/-- At every position of the cycle an iteration without a TICK before it changes nothing. -/
theorem flashTransition_settled {m : Memory} (hspeed : Memory.read m 1 ≠ 0) {c : Nat} (hc : c < cycleLength m) :
    flashTransition m (flashClock c).1 (flashClock c).2 =
      ⟨(flashClock c).1, shown m (flashClock c).1, false⟩ := by
  have hoff := (offMap_range (Memory.read m 1)).2
  rw [cycleLength] at hc
  by_cases hlit : c < 4
  · rw [flashClock_lit hlit, flashTransition_on hspeed (by omega), if_neg (by omega)]
    rfl
  · rw [flashClock_dark (by omega), flashTransition_off hspeed (by omega), if_neg (by omega)]
    rfl

/-- The first iteration after a TICK moves the clock by one position: it is lit up to 3 ticks, goes dark at the
fourth, is dark up to `off` ticks, and is lit again at the next. -/
theorem flashTransition_after_tick {m : Memory} (hspeed : Memory.read m 1 ≠ 0) {c : Nat} (hc : c < cycleLength m) :
    ∃ rr, flashTransition m (flashClock c).1 ((flashClock c).2 + 1) =
        ⟨(flashClock ((c + 1) % cycleLength m)).1, shown m (flashClock ((c + 1) % cycleLength m)).1, rr⟩ ∧
      (flashClock ((c + 1) % cycleLength m)).2 = if rr then 0 else (flashClock c).2 + 1 := by
  have hoff := (offMap_range (Memory.read m 1)).2
  rw [cycleLength] at hc ⊢
  by_cases hlit : c < 4
  · rw [flashClock_lit hlit, flashTransition_on hspeed (by omega), Nat.mod_eq_of_lt (by omega)]
    by_cases hlast : c = 3
    · exact ⟨true, by rw [if_pos (by omega), flashClock_dark (by omega)]; rfl, by rw [hlast]; rfl⟩
    · exact ⟨false, by rw [if_neg (by omega), flashClock_lit (by omega)]; rfl, by rw [flashClock_lit (by omega)]; rfl⟩
  · rw [flashClock_dark (c := c) (by omega), flashTransition_off hspeed (by omega)]
    by_cases hlast : c + 1 = (offMap (Memory.read m 1)).toNat + 5
    · exact ⟨true, by rw [if_pos (by omega), hlast, Nat.mod_self]; rfl, by rw [hlast, Nat.mod_self]; rfl⟩
    · rw [Nat.mod_eq_of_lt (by omega), flashClock_dark (by omega), if_neg (by omega)]
      exact ⟨false, rfl, Nat.sub_add_comm (by omega)⟩

/-! ## Rounds of the sampling regime -/

/-- A round of a TICK and one or more iterations moves the clock by one position. -/
theorem Flashing.round {m : Memory} (hspeed : Memory.read m 1 ≠ 0) {c : Nat} (hc : c < cycleLength m) (k : Nat)
    {s : State} (h : Flashing m (flashClock c).1 (flashClock c).2 s) :
    ∃ t, runInstrs (tickRound k) s = .next t ∧
      Flashing m (flashClock ((c + 1) % cycleLength m)).1 (flashClock ((c + 1) % cycleLength m)).2 t ∧
      t.effOut = shown m (flashClock ((c + 1) % cycleLength m)).1 := by
  obtain ⟨rr, htr, hn⟩ := flashTransition_after_tick hspeed hc
  have hc' : (c + 1) % cycleLength m < cycleLength m := Nat.mod_lt _ (Nat.zero_lt_of_lt hc)
  obtain ⟨hfirst, heff⟩ := h.tick.iterate hspeed htr hn
  obtain ⟨t, hrun, ht⟩ := hfirst.iterate_settled hspeed (flashTransition_settled hspeed hc') k heff
  refine ⟨t, (runInstrs_cons_eq_next_iff _ _ _ _).mpr ⟨_, exec_tick s, ?_⟩, ht⟩
  exact runInstrs_append (runInstrs_iterate _ h.tick.phase_ready) hrun

/-- From the start of a cycle, any number of rounds brings the clock to that number, counted in cycles. -/
theorem Flashing.rounds {m : Memory} (hspeed : Memory.read m 1 ≠ 0) {s : State} (h : Flashing m .on 0 s)
    (ks : List Nat) :
    ∃ t, runInstrs (tickRounds ks) s = .next t ∧
      Flashing m (flashClock (ks.length % cycleLength m)).1 (flashClock (ks.length % cycleLength m)).2 t ∧
      (0 < ks.length → t.effOut = shown m (flashClock (ks.length % cycleLength m)).1) := by
  have hpos : 0 < cycleLength m := Nat.succ_pos _
  induction ks using List.reverseRecOn with
  | nil => exact ⟨s, rfl, by rw [List.length_nil, Nat.zero_mod]; exact h, fun h0 => absurd h0 (Nat.lt_irrefl 0)⟩
  | append_singleton ks k ih =>
    obtain ⟨t, hrun, ht, -⟩ := ih
    obtain ⟨u, hround, hu, heff⟩ := ht.round hspeed (Nat.mod_lt _ hpos) k
    rw [Nat.mod_add_mod] at hu heff
    rw [List.length_append, List.length_singleton, tickRounds, List.flatMap_append, List.flatMap_singleton]
    exact ⟨u, runInstrs_append hrun hround, hu, fun _ => heff⟩

/-- Settles O36: the state it speaks of is the start of a cycle, and the three clauses read the clock. -/
theorem flashIsFourTicksLitAndOffPlusOneDark : Obligations.FlashIsFourTicksLitAndOffPlusOneDark := by
  intro s ks hready hactive hon hzero hspeed
  simp only [← offMap_toNat]
  obtain ⟨t, hrun, ht, heff⟩ := Flashing.rounds hspeed ⟨hready, hactive, rfl, hon, hzero⟩ ks
  have hoff := (offMap_range (Memory.read s.inFrame 1)).2
  rw [cycleLength] at ht heff
  refine ⟨t, hrun, ht.phase_ready, fun hlit => ?_, fun hdark hlast => ?_, fun hagain => ?_⟩
  · rw [Nat.mod_eq_of_lt (by omega), flashClock_lit hlit] at ht heff
    refine ⟨ht.state_eq, ?_, heff⟩
    rw [ht.ticks_eq, BitVec.toNat_ofNat, Nat.mod_eq_of_lt (by omega)]
  · rw [Nat.mod_eq_of_lt hlast, flashClock_dark hdark] at ht heff
    refine ⟨ht.state_eq, ?_, heff (by omega)⟩
    rw [ht.ticks_eq, BitVec.toNat_ofNat, Nat.mod_eq_of_lt (by omega)]
  · rw [hagain, Nat.mod_self] at ht heff
    exact ⟨ht.state_eq, ht.ticks_eq, heff (by omega)⟩

end Sys2Proof.Machine
end

section
/-! PROOFS. Infinite runs: a fair LOOP iterates for ever (R98), and a fair run that samples every tick ends every phase
of the strobe (R60, R110), spec/40_tick_counter.md and spec/60_exceptions.md. -/

namespace Sys2Proof.Machine

/-! ## Intervals of a run -/

theorem Run.follows_of (r : Run) {n : Nat} {i : Instr} (hi : r.instr n = i) :
    exec i (r.state n) = .next (r.state (n + 1)) := hi ▸ r.follows n

/-- What every operation of an interval keeps, the interval keeps. -/
theorem Run.keeps_between (r : Run) {I : State → Prop} {a b : Nat} (hab : a ≤ b) (ha : I (r.state a))
    (hkeep : ∀ n, a ≤ n → n < b → I (r.state n) → I (r.state (n + 1))) : I (r.state b) := by
  induction b, hab using Nat.le_induction with
  | base => exact ha
  | succ b hab ih => exact hkeep b hab (Nat.lt_succ_self b) (ih fun n hn hb => hkeep n hn (Nat.lt_succ_of_lt hb))

/-- Of the operations with `q` at or after a position, one comes first. -/
theorem Run.exists_first (r : Run) {q : Instr → Prop} {a : Nat} (h : ∃ m, a ≤ m ∧ q (r.instr m)) :
    ∃ m, a ≤ m ∧ q (r.instr m) ∧ ∀ k, a ≤ k → k < m → ¬ q (r.instr k) := by
  classical
  obtain ⟨ha, hq⟩ := Nat.find_spec h
  exact ⟨Nat.find h, ha, hq, fun k hk hlt hqk => Nat.find_min h hlt ⟨hk, hqk⟩⟩

/-! ## LOOP alternates -/

/-- R18: the operation of LOOP that a phase enables. -/
def loopInstr : Phase → Instr
  | .ready => .sample
  | .sampled => .commit

/-- R18: there are two phases. -/
theorem phase_eq_of_ne_of_ne : ∀ {p q r : Phase}, p ≠ q → q ≠ r → p = r
  | .ready, _, .ready, _, _ | .sampled, _, .sampled, _, _ => rfl
  | .ready, .ready, .sampled, hpq, _ | .sampled, .sampled, .ready, hpq, _ => absurd rfl hpq
  | .ready, .sampled, .sampled, _, hqr | .sampled, .ready, .ready, _, hqr => absurd rfl hqr

/-- R18: LOOP performs the operation its phase enables, and leaves that phase. -/
theorem exec_loop (i : Instr) (s t : State) (hi : performer i = .loop) (h : exec i s = .next t) :
    i = loopInstr s.phase ∧ t.phase ≠ s.phase := by
  cases i with
  | sample =>
    obtain ⟨hs, ht⟩ := exec_sample_phases s t h
    rw [hs, ht]
    exact ⟨rfl, Phase.noConfusion⟩
  | commit =>
    obtain ⟨hs, ht⟩ := exec_commit_phases s t h
    rw [hs, ht]
    exact ⟨rfl, Phase.noConfusion⟩
  | _ => cases hi

/-- R18: no other agent changes the phase. -/
theorem exec_not_loop_keeps_phase (i : Instr) (s t : State) (hr : i ≠ .rst) (hi : performer i ≠ .loop)
    (h : exec i s = .next t) : t.phase = s.phase :=
  exec_keeps_phase i s t hr (fun hs => hi (hs ▸ rfl)) (fun hc => hi (hc ▸ rfl)) h

/-- The next step of LOOP is the operation that the present phase enables, and ends that phase. -/
theorem Run.next_loop (r : Run) (hloop : r.loopFair) (hreset : r.noReset) (n : Nat) :
    ∃ m, n ≤ m ∧ r.instr m = loopInstr (r.state n).phase ∧ (r.state (m + 1)).phase ≠ (r.state n).phase := by
  obtain ⟨m, hm, hi, hfirst⟩ := r.exists_first (q := fun i => performer i = .loop) (hloop n)
  have hphase : (r.state m).phase = (r.state n).phase :=
    r.keeps_between (I := fun s => s.phase = (r.state n).phase) hm rfl fun k hk hlt heq =>
      (exec_not_loop_keeps_phase _ _ _ (hreset k) (hfirst k hk hlt) (r.follows k)).trans heq
  rw [← hphase]
  exact ⟨m, hm, exec_loop _ _ _ hi (r.follows m)⟩

/-- In a fair run LOOP performs the operation of either phase after every position. -/
theorem Run.loopInstr_recurs (r : Run) (hloop : r.loopFair) (hreset : r.noReset) (ph : Phase) (n : Nat) :
    ∃ m, n ≤ m ∧ r.instr m = loopInstr ph := by
  obtain ⟨m, hm, hi, hother⟩ := r.next_loop hloop hreset n
  by_cases hph : (r.state n).phase = ph
  · exact ⟨m, hm, hph ▸ hi⟩
  · obtain ⟨m', hm', hi', -⟩ := r.next_loop hloop hreset (m + 1)
    have hphase := phase_eq_of_ne_of_ne hother hph
    exact ⟨m', by omega, hphase ▸ hi'⟩

/-- Settles O38: SAMPLE and COMMIT are the operations of the two phases. -/
theorem fairLoopIteratesForEver : Obligations.FairLoopIteratesForEver :=
  fun r hloop hreset => ⟨r.loopInstr_recurs hloop hreset .ready, r.loopInstr_recurs hloop hreset .sampled⟩

/-! ## An engaged strobe -/

/-- A COMMIT has found a nonzero speed, and the next one will find a nonzero speed again. -/
def Engaged (s : State) : Prop := s.snapSpeed ≠ 0 ∧ s.wasActive = true

/-- A SAMPLE that takes its step is in READY and does what `sampleWrites` says. -/
theorem exec_sample_inv {s t : State} (h : exec .sample s = .next t) : s.phase = .ready ∧ t = sampleWrites s := by
  have hp := (exec_sample_phases s t h).1
  rw [exec_sample_eq s hp] at h
  cases h
  exact ⟨hp, rfl⟩

/-- With a nonzero speed byte in the frame, a nonzero latched speed stays nonzero. -/
theorem exec_keeps_snapSpeed_ne_zero (i : Instr) (s t : State) (hr : i ≠ .rst) (hframe : Memory.read s.inFrame 1 ≠ 0)
    (hs : s.snapSpeed ≠ 0) (h : exec i s = .next t) : t.snapSpeed ≠ 0 := by
  by_cases hi : i = .sample
  · subst hi
    obtain ⟨-, rfl⟩ := exec_sample_inv h
    exact hframe
  · obtain ⟨-, hspeed, -⟩ := exec_keeps_snapshot i s t hr hi h
    rw [hspeed]
    exact hs

theorem commitWrites_engaged {s : State} (hs : s.snapSpeed ≠ 0) : Engaged (commitWrites s) := by
  rw [Engaged, commitWrites_snapSpeed, commitWrites_wasActive]
  exact ⟨hs, decide_eq_true hs⟩

theorem exec_keeps_engaged (i : Instr) (s t : State) (hr : i ≠ .rst) (hframe : Memory.read s.inFrame 1 ≠ 0)
    (hs : Engaged s) (h : exec i s = .next t) : Engaged t := by
  obtain ⟨hspeed, hactive⟩ := hs
  by_cases hi : i = .commit
  · subst hi
    obtain ⟨-, rfl⟩ := exec_commit_inv h
    exact commitWrites_engaged hspeed
  · obtain ⟨-, hwas, -⟩ := exec_keeps_flags_and_outputs i s t hr hi h
    exact ⟨exec_keeps_snapSpeed_ne_zero i s t hr hframe hspeed h, hwas.trans hactive⟩

/-- R70, R71: an active strobe asks for a tick reset exactly when it changes its state. -/
theorem transition_active_rr_iff (s : StrobeState) (t m p : Byte) (hp : p ≠ 0) :
    (transition s true t m p).rr = true ↔ (transition s true t m p).ns ≠ s := by
  cases s with
  | on => rw [transition_lit t m p hp]; split <;> simp
  | off => rw [transition_dark t m p hp]; split <;> simp

/-- R62: 200 ticks end either phase, at every nonzero speed. -/
theorem transition_active_at_200 (s : StrobeState) (m p : Byte) (hp : p ≠ 0) :
    (transition s true 200 m p).ns ≠ s := by
  cases s with
  | on => rw [transition_lit _ m p hp, if_pos (by decide)]; exact StrobeState.noConfusion
  | off =>
    have hoff : (offMap p).toNat < (200 : Byte).toNat := Nat.lt_succ_of_le (offMapRange.2.2.2 p hp).2
    rw [transition_dark _ m p hp, if_pos hoff]
    exact StrobeState.noConfusion

/-- A COMMIT of an engaged strobe that leaves its state leaves the counter. -/
theorem commitWrites_keeps_ticks {s : State} (hs : Engaged s)
    (hstate : (commitWrites s).strobeState = s.strobeState) : (commitWrites s).tickCount = s.tickCount := by
  obtain ⟨hspeed, hactive⟩ := hs
  rw [commitWrites_strobeState, commitTransition, hactive] at hstate
  rw [commitWrites_tickCount, commitTransition, hactive]
  exact if_neg fun hrr => (transition_active_rr_iff _ _ _ _ hspeed).mp hrr hstate

/-- While an engaged strobe keeps its state, only TICK writes the counter. -/
theorem exec_keeps_ticks (i : Instr) (s t : State) (hr : i ≠ .rst) (hi : i ≠ .tick) (hs : Engaged s)
    (hstate : t.strobeState = s.strobeState) (h : exec i s = .next t) : t.tickCount = s.tickCount := by
  by_contra hne
  obtain ⟨htick, -⟩ | ⟨rfl, -⟩ | ⟨hrst, -⟩ := onlyTickCommitAndRstWriteTheCounter i s t h hne
  · exact hi htick
  · obtain ⟨-, rfl⟩ := exec_commit_inv h
    exact hne (commitWrites_keeps_ticks hs hstate)
  · exact hr hrst

/-- R18, R19: an iteration has begun and its SAMPLE has latched the ticks `v`. -/
def Latched (v : Byte) (s : State) : Prop := s.phase = .sampled ∧ s.snapTicks = v

/-- R18: between a SAMPLE and its COMMIT the latched ticks stay. -/
theorem exec_keeps_latched (v : Byte) (i : Instr) (s t : State) (hr : i ≠ .rst) (hi : i ≠ .commit)
    (hs : Latched v s) (h : exec i s = .next t) : Latched v t := by
  obtain ⟨hphase, hticks⟩ := hs
  have hsample : i ≠ .sample := by
    rintro rfl
    rw [exec_sample_sampled s hphase] at h
    cases h
  obtain ⟨-, -, hsnap, -⟩ := exec_keeps_snapshot i s t hr hsample h
  exact ⟨(exec_keeps_phase i s t hr hsample hi h).trans hphase, hsnap.trans hticks⟩

/-! ## No phase lasts for ever -/

/-- After any position the run comes to be engaged, at the COMMIT of an iteration that begins later. -/
theorem Run.exists_engaged (r : Run) (hloop : r.loopFair) (hreset : r.noReset)
    (hspeed : ∀ n, Memory.read (r.state n).inFrame 1 ≠ 0) (n : Nat) :
    ∃ a, n ≤ a ∧ ∀ b, a ≤ b → Engaged (r.state b) := by
  obtain ⟨c, hc, hsample⟩ := r.loopInstr_recurs hloop hreset .ready n
  obtain ⟨d, hd, hcommit⟩ := r.loopInstr_recurs hloop hreset .sampled (c + 1)
  have hlatched : (r.state (c + 1)).snapSpeed ≠ 0 := by
    rw [(exec_sample_inv (r.follows_of hsample)).2]
    exact hspeed c
  have hfound : (r.state d).snapSpeed ≠ 0 :=
    r.keeps_between (I := fun s => s.snapSpeed ≠ 0) hd hlatched fun k _ _ hk =>
      exec_keeps_snapSpeed_ne_zero _ _ _ (hreset k) (hspeed k) hk (r.follows k)
  have hengaged : Engaged (r.state (d + 1)) := by
    rw [(exec_commit_inv (r.follows_of hcommit)).2]
    exact commitWrites_engaged hfound
  exact ⟨d + 1, by omega, fun b hb => r.keeps_between hb hengaged fun k _ _ hk =>
    exec_keeps_engaged _ _ _ (hreset k) (hspeed k) hk (r.follows k)⟩

/-- Where only TICK writes the counter from `N` on, a fair run has a next TICK, which adds one to the counter. -/
theorem Run.next_tick (r : Run) (htick : r.tickFair) {N : Nat}
    (hkeep : ∀ k, N ≤ k → r.instr k ≠ .tick → (r.state (k + 1)).tickCount = (r.state k).tickCount) (a : Nat)
    (ha : N ≤ a) :
    ∃ m, a ≤ m ∧ r.instr m = .tick ∧ (r.state (m + 1)).tickCount = (r.state a).tickCount + 1 ∧
      ∀ k, a ≤ k → k ≤ m → (r.state k).tickCount = (r.state a).tickCount := by
  obtain ⟨m, hm, hi, hfirst⟩ := r.exists_first (q := (· = .tick)) (htick a)
  have hsame : ∀ k, a ≤ k → k ≤ m → (r.state k).tickCount = (r.state a).tickCount := fun k hk hkm =>
    r.keeps_between (I := fun s => s.tickCount = (r.state a).tickCount) hk rfl fun l hl hlt heq =>
      (hkeep l (by omega) (hfirst l hl (by omega))).trans heq
  have hnext : (r.state m).withTick ((r.state m).tickCount + 1) = r.state (m + 1) :=
    Host.Outcome.next.inj (r.follows_of hi)
  refine ⟨m, hm, hi, ?_, hsame⟩
  rw [← hnext, State.withTick_tickCount, hsame m hm (Nat.le_refl m)]

/-- So the counter comes to every value. -/
theorem Run.counter_reaches (r : Run) (htick : r.tickFair) {N : Nat}
    (hkeep : ∀ k, N ≤ k → r.instr k ≠ .tick → (r.state (k + 1)).tickCount = (r.state k).tickCount) (v : Byte) :
    ∃ a, N ≤ a ∧ (r.state a).tickCount = v := by
  have hadd : ∀ n, ∃ a, N ≤ a ∧ (r.state a).tickCount = (r.state N).tickCount + BitVec.ofNat 8 n := by
    intro n
    induction n with
    | zero => exact ⟨N, Nat.le_refl N, (BitVec.add_zero _).symm⟩
    | succ n ih =>
      obtain ⟨a, ha, hcount⟩ := ih
      obtain ⟨m, hm, -, hnext, -⟩ := r.next_tick htick hkeep a ha
      refine ⟨m + 1, by omega, ?_⟩
      rw [hnext, hcount, BitVec.ofNat_add, BitVec.add_assoc]
      rfl
  obtain ⟨a, ha, hcount⟩ := hadd (v - (r.state N).tickCount).toNat
  refine ⟨a, ha, ?_⟩
  rw [hcount, BitVec.ofNat_toNat, BitVec.setWidth_eq, BitVec.add_comm, BitVec.sub_add_cancel]

/-- R110: and LOOP samples every value, since a SAMPLE falls between any two TICKs. -/
theorem Run.samples_value (r : Run) (htick : r.tickFair) (hsamples : r.samplesEveryTick) {N : Nat}
    (hkeep : ∀ k, N ≤ k → r.instr k ≠ .tick → (r.state (k + 1)).tickCount = (r.state k).tickCount) (v : Byte) :
    ∃ c, N ≤ c ∧ r.instr c = .sample ∧ (r.state c).tickCount = v := by
  obtain ⟨a, ha, hcount⟩ := r.counter_reaches htick hkeep (v - 1)
  obtain ⟨m, hm, hi, hnext, -⟩ := r.next_tick htick hkeep a ha
  obtain ⟨b, hb, hi', -, hsame⟩ := r.next_tick htick hkeep (m + 1) (by omega)
  obtain ⟨c, hmc, hcb, hsample⟩ := hsamples.1 m b (by omega) hi hi'
  refine ⟨c, by omega, hsample, ?_⟩
  rw [hsame c (by omega) (by omega), hnext, hcount, BitVec.sub_add_cancel]

/-- R41: what a SAMPLE latched is what the next COMMIT finds. -/
theorem Run.commit_finds_sampled_ticks (r : Run) (hloop : r.loopFair) (hreset : r.noReset) (c : Nat)
    (hsample : r.instr c = .sample) :
    ∃ d, c ≤ d ∧ r.instr d = .commit ∧ (r.state d).snapTicks = (r.state c).tickCount := by
  obtain ⟨d, hd, hcommit, hfirst⟩ :=
    r.exists_first (q := (· = .commit)) (r.loopInstr_recurs hloop hreset .sampled (c + 1))
  have hlatched : Latched (r.state c).tickCount (r.state (c + 1)) := by
    rw [(exec_sample_inv (r.follows_of hsample)).2]
    exact ⟨rfl, rfl⟩
  have hfound : Latched (r.state c).tickCount (r.state d) := r.keeps_between hd hlatched fun k hk hlt hlat =>
    exec_keeps_latched _ _ _ _ (hreset k) (hfirst k hk hlt) hlat (r.follows k)
  exact ⟨d, by omega, hcommit, hfound.2⟩

/-- A COMMIT of an engaged strobe that finds 200 ticks changes its state. -/
theorem commitWrites_changes_state {s : State} (hs : Engaged s) (hticks : s.snapTicks = 200) :
    (commitWrites s).strobeState ≠ s.strobeState := by
  obtain ⟨hspeed, hactive⟩ := hs
  rw [commitWrites_strobeState, commitTransition, hactive, hticks]
  exact transition_active_at_200 _ _ _ hspeed

/-- Settles O37: if the state never changed, only TICK would write the counter of the engaged strobe, so LOOP would
sample 200 ticks, which end either phase. -/
theorem everyPhaseOfTheStrobeEnds : Obligations.EveryPhaseOfTheStrobeEnds := by
  intro r htick hloop hreset hsamples hspeed n
  by_contra hnever
  have hconst : ∀ m, n ≤ m → (r.state m).strobeState = (r.state n).strobeState := fun m hm =>
    not_not.mp fun hne => hnever ⟨m, hm, hne⟩
  obtain ⟨N, hN, hengaged⟩ := r.exists_engaged hloop hreset hspeed n
  have hkeep : ∀ k, N ≤ k → r.instr k ≠ .tick → (r.state (k + 1)).tickCount = (r.state k).tickCount :=
    fun k hk hi => exec_keeps_ticks _ _ _ (hreset k) hi (hengaged k hk)
      ((hconst _ (by omega)).trans (hconst k (by omega)).symm) (r.follows k)
  obtain ⟨c, hc, hsample, hcount⟩ := r.samples_value htick hsamples hkeep 200
  obtain ⟨d, hd, hcommit, hticks⟩ := r.commit_finds_sampled_ticks hloop hreset c hsample
  have hchange := commitWrites_changes_state (hengaged d (by omega)) (hticks.trans hcount)
  rw [← (exec_commit_inv (r.follows_of hcommit)).2] at hchange
  exact hchange ((hconst _ (by omega)).trans (hconst d (by omega)).symm)

end Sys2Proof.Machine
end
